-- ==== Sys2Proof/Word.lean ====
section
/-! DEFINITION. The word types of FXDC: registers and command words are 32 bits (00_scope.md R7), window
offsets are 8 bits (20_memory.md R46), a byte lane is 8 bits (20_memory.md R49). -/

namespace Sys2Proof

/-- A register's contents or a command word (00_scope.md R7). -/
abbrev Word := BitVec 32

/-- One byte lane of a register (20_memory.md R49). -/
abbrev Byte := BitVec 8

/-- A byte offset 0x00..0xFF in the register window (20_memory.md R46). -/
abbrev Offset := BitVec 8

/-- `s32(v)`: the signed (two's-complement) value of a pattern (00_scope.md R12, R13).
PRESUMED two's complement: the spec's general knowledge G1 (log 12). -/
abbrev s32 (v : Word) : Int := v.toInt

/-- `u32(v)`: the unsigned value of a pattern (00_scope.md R13). -/
abbrev u32 (v : Word) : Nat := v.toNat

end Sys2Proof
end

