-- ==== Sys2Proof/Syntax.lean ====
section
/-! DEFINITION. The nine commands of FXDC, one constructor per row of spec/opcode_table.json
(30_encoding.md R71). Operands are implicit registers (R68); the only immediate is FXMUL's shift (R69). -/

namespace Sys2Proof

/-- A command of FXDC (30_encoding.md R71). -/
inductive Instr where
  /-- NOP, 44_orchestration.md R137. -/
  | nop
  /-- FXMUL sh, 40_fixed_point.md R86; `sh` is the shift count, legal in 0..63 (30_encoding.md R69). -/
  | fxmul (sh : Nat)
  /-- SCALE, 41_voltage_scaling.md R96. -/
  | scale
  /-- POLY, 42_response_curve.md R106. -/
  | poly
  /-- CLAMP, 43_clamp_convert.md R121. -/
  | clamp
  /-- TOMM, 43_clamp_convert.md R126. -/
  | tomm
  /-- READUM, 44_orchestration.md R131. -/
  | readum
  /-- READMM, 44_orchestration.md R134. -/
  | readmm
  /-- CLRST, 44_orchestration.md R138. -/
  | clrst
deriving DecidableEq, Repr

end Sys2Proof
end

