-- ==== Sys2Proof/WellFormed.lean ====
section
/-! DEFINITION. Which commands have a word: "A shift of 64 cannot be encoded" (30_encoding.md R69). -/

namespace Sys2Proof

/-- The command can be encoded: the shift of FXMUL is the unsigned 6-bit value SH, 0..63 (30_encoding.md R67,
R69); the other commands have no operand (R68). -/
def Instr.wf : Instr → Bool
  | .nop => true
  | .fxmul sh => decide (sh < 64)
  | .scale => true
  | .poly => true
  | .clamp => true
  | .tomm => true
  | .readum => true
  | .readmm => true
  | .clrst => true

end Sys2Proof
end

