-- ==== Sys2Proof/Decode.lean ====
section
/-! DEFINITION. The command word: fields (30_encoding.md R67), decoder (R66, R71, R72), encoder (R74). -/

namespace Sys2Proof

/-- Why a word is no legal command (30_encoding.md R72), in the order in which R66 tests. -/
inductive DecodeError where
  /-- RSV = w[31:14] is not 0. -/
  | reservedBits
  /-- SH = w[13:8] is not 0 and OP is not FXMUL's. -/
  | shiftNotAllowed
  /-- OP is one of the reserved opcodes 0x09..0xFF (R73). -/
  | reservedOpcode
deriving DecidableEq, Repr

/-- OP = w[7:0] (30_encoding.md R67). -/
def opField (w : Word) : BitVec 8 := w.extractLsb' 0 8

/-- SH = w[13:8] (30_encoding.md R67). -/
def shField (w : Word) : BitVec 6 := w.extractLsb' 8 6

/-- RSV = w[31:14] (30_encoding.md R67). -/
def rsvField (w : Word) : BitVec 18 := w.extractLsb' 14 18

/-- The commands whose only field is OP (30_encoding.md R66, the `case op of`; R71). -/
def decodePlain (op : BitVec 8) : Except DecodeError Instr :=
  match op.toNat with
  | 0x00 => .ok .nop
  | 0x02 => .ok .scale
  | 0x03 => .ok .poly
  | 0x04 => .ok .clamp
  | 0x05 => .ok .tomm
  | 0x06 => .ok .readum
  | 0x07 => .ok .readmm
  | 0x08 => .ok .clrst
  | _ => .error .reservedOpcode

/-- The decoder of `Execute(w)` (30_encoding.md R66): total on every word, rejecting by name. Every command is
exactly one word (R70). -/
def decode (w : Word) : Except DecodeError Instr :=
  if rsvField w ≠ 0 then .error .reservedBits
  else if opField w = 0x01#8 then .ok (.fxmul (shField w).toNat)
  else if shField w ≠ 0 then .error .shiftNotAllowed
  else decodePlain (opField w)

/-- OP of each command (30_encoding.md R71). -/
def Instr.opcode : Instr → BitVec 8
  | .nop => 0x00#8
  | .fxmul _ => 0x01#8
  | .scale => 0x02#8
  | .poly => 0x03#8
  | .clamp => 0x04#8
  | .tomm => 0x05#8
  | .readum => 0x06#8
  | .readmm => 0x07#8
  | .clrst => 0x08#8

/-- SH of each command, before it is cut to six bits: 0 outside FXMUL (30_encoding.md R67). -/
def Instr.shift : Instr → Nat
  | .fxmul sh => sh
  | .nop | .scale | .poly | .clamp | .tomm | .readum | .readmm | .clrst => 0

/-- The command word RSV = 0, SH, OP (30_encoding.md R67, R74). -/
def encode (i : Instr) : Word :=
  (0#18 ++ (BitVec.ofNat 6 i.shift ++ i.opcode) : BitVec (18 + (6 + 8)))

/-- The command the decoder reads from an opcode-table row's bits `w`, numbered with bit 0 the least significant
(spec/opcode_table.json). Every command is one 32-bit word (30_encoding.md R70), so a number with a bit above
bit 31 is no command. -/
def decodeTableWord (nbits w : Nat) : Option Instr :=
  let bits := w % 2 ^ nbits
  if bits < 2 ^ 32 then (decode (BitVec.ofNat 32 bits)).toOption else none

end Sys2Proof
end

