-- ==== Sys2Proof/Config.lean ====
section
/-! DEFINITION. What one hardware revision or platform fixes (the OPEN parameters P_VREF, P_DIVR and P_BASE,
00_scope.md R9, R11, 20_memory.md R46), and the free values of a power loss (93_implementation_defined.md I14).
The opaque constants have no body: no proof can see a value of theirs. -/

namespace Sys2Proof

/-- A positive Q16.16 parameter: a word P with 1 ≤ s32(P) ≤ 2^31 − 1 (00_scope.md R9). The upper bound holds
of every word; the lower one is the field `positive`. A value outside the range cannot be built, which is how
the model refuses a configuration that breaks the constraint (DESIGN CHOICE, log 3, safe). -/
structure PosQ where
  word : Word
  positive : 0 < word.toInt
deriving DecidableEq, Repr

/-- A configuration's parameter word, REFUSED (none) outside 1..2^31 − 1: "A model must refuse a configuration
that breaks this constraint" (00_scope.md R9). -/
def PosQ.ofWord? (w : Word) : Option PosQ :=
  if h : 0 < w.toInt then some ⟨w, h⟩ else none

theorem PosQ.ofIndex_positive (k : Fin 2147483647) : 0 < (BitVec.ofNat 32 (k.val + 1)).toInt := by
  have hk := k.isLt
  rw [BitVec.toInt_eq_toNat_cond, BitVec.toNat_ofNat]
  omega

/-- The k-th legal parameter: the word k + 1, so every value of 1..2^31 − 1 is one index (00_scope.md R9). -/
def PosQ.ofIndex (k : Fin 2147483647) : PosQ :=
  ⟨BitVec.ofNat 32 (k.val + 1), PosQ.ofIndex_positive k⟩

/-- Which legal value the hardware revision gives P_VREF: OPEN (00_scope.md R9, D14). Free (DESIGN CHOICE, log 3). -/
opaque Config.vrefIndex : Fin 2147483647

/-- Which legal value the hardware revision gives P_DIVR: OPEN (00_scope.md R9, D14). Free (DESIGN CHOICE, log 3). -/
opaque Config.divrIndex : Fin 2147483647

/-- Which 256-byte block of the platform's address space holds the window: OPEN (20_memory.md R46). Free (DESIGN CHOICE, log 4). -/
opaque Config.baseIndex : Nat

/-- The register that holds this word after power loss number n, by register number k: "any value" until reset
(93_implementation_defined.md I14, 60_exceptions.md R157). Free (DESIGN CHOICE, log 7). -/
opaque Config.powerLossWord (n k : Nat) : Word

/-- P_VREF, the reference voltage in Q16.16 (00_scope.md R9). -/
def Config.pVref : PosQ := PosQ.ofIndex Config.vrefIndex

/-- P_DIVR, the voltage-divider ratio in Q16.16 (00_scope.md R9). -/
def Config.pDivr : PosQ := PosQ.ofIndex Config.divrIndex

/-- P_BASE, the base address of the window, a multiple of 256 (20_memory.md R46). -/
def Config.pBase : Nat := 256 * Config.baseIndex

end Sys2Proof
end

