-- ==== Sys2Proof/Machine/Arith.lean ====
section
/-! DEFINITION. The arithmetic primitives of 00_scope.md R13 and R14: exact integers, narrowed once at the end. -/

namespace Sys2Proof.Machine

/-- A value narrowed to 32 bits and whether it failed to fit (00_scope.md R14: `(wrap32(q), ov)`). -/
structure Narrowed where
  word : Word
  ov : Bool
deriving DecidableEq, Repr

/-- `wrap32(q)`, as the pattern it leaves in a register: the low 32 bits of q (00_scope.md R13). -/
def wrap32 (q : Int) : Word := BitVec.ofInt 32 q

/-- `fits32(q)`: −2^31 ≤ q ≤ 2^31 − 1 (00_scope.md R13). -/
def fits32 (q : Int) : Bool := decide (-2147483648 ≤ q) && decide (q ≤ 2147483647)

/-- `q >>a n`, which is floor(q / 2^n) (00_scope.md R13; the spec's general knowledge G2, PRESUMED, log 12). -/
def asr (q : Int) (n : Nat) : Int := q >>> n

/-- `clamp(u, lo, hi)` (00_scope.md R13). -/
def clampTo (u lo hi : Int) : Int := if u < lo then lo else if u > hi then hi else u

/-- `trunc(u / d)`: the quotient rounded toward zero (00_scope.md R13). -/
def truncDiv (u d : Int) : Int := u.tdiv d

/-- A wide integer narrowed to 32 bits by two's-complement wrap (00_scope.md R14, D8). -/
def narrow (q : Int) : Narrowed := ⟨wrap32 q, !fits32 q⟩

/-- `fxmul(x, y, n)` (00_scope.md R14). -/
def fxmul (x y : Int) (n : Nat) : Narrowed := narrow (asr (x * y) n)

/-- `fx16(x, y)`: the Q16.16 multiply (00_scope.md R14). -/
def fx16 (x y : Int) : Narrowed := fxmul x y 16

/-- The quotient n / d of an integer and a positive integer rounded to nearest, ties away from zero
(`round_half_away`, 10_state.md R31, D11). -/
def roundHalfAway (n : Int) (d : Nat) : Int :=
  n.sign * (((2 * n.natAbs + d) / (2 * d) : Nat) : Int)

/-- `q(num / den)`: the Q16.16 encoding of a real literal given as a fraction (30_encoding.md R76, D11, D40). -/
def qLiteral (num : Int) (den : Nat) : Word := wrap32 (roundHalfAway (num * 65536) den)

/-- Byte lane i of a register's word: bits [8i+7 : 8i] (20_memory.md R49, little-endian). -/
def byteLane (w : Word) (i : Nat) : Byte := w.extractLsb' (8 * i) 8

end Sys2Proof.Machine
end

