-- ==== Sys2Proof/Machine/State.lean ====
section
/-! DEFINITION. What FXDC holds (10_state.md R16, R18, R39), what its host and platform do to it
(20_memory.md R55, 70_reset_and_hazards.md R174), why a step can stop, and the state after reset. -/

namespace Sys2Proof.Machine

/-- The 27 named registers of the window (10_state.md R16, R18). -/
inductive Reg where
  | cfg | status | cmd | a | b | r | plo | phi | raw | vpin | v | fmm | umr | um | mm
  | adcmax | vref | divr | maxum | db0 | db1 | db2 | db3 | cb0 | cb1 | cb2 | cb3
deriving DecidableEq, Repr

/-- The outcomes that STATUS.ERR can report (10_state.md R22). -/
inductive ErrCode where
  /-- success. -/
  | ok
  /-- a CFG write with an illegal resolution (R20). -/
  | ecfg
  /-- SCALE, READUM or READMM while CFGV = 0. -/
  | enocfg
  /-- SCALE, READUM or READMM with u32(RAW) ≥ ADCMAX. -/
  | erange
  /-- a CMD word that is no legal command (30_encoding.md R72). -/
  | eill
deriving DecidableEq, Repr

/-- The stored registers (10_state.md R18, R19, R21, R39). CFG and STATUS are held by field: their reserved bits
read 0 and take no write, CFGV and ADCMAX are derived (R25, R34), CMD stores nothing (R27), MAXUM and DB0..DB3
are constants (R35, R31). -/
@[ext]
structure Regs where
  /-- CFG.RES, the ADC resolution in bits; 0 while unconfigured (R19). -/
  res : BitVec 5
  /-- CFG.CSEL: false the default curve, true the substitute one (R19). -/
  csel : Bool
  /-- CFG.CCLAMP: POLY clamps a substitute curve's result (R19). -/
  cclamp : Bool
  /-- STATUS.ERR (R21, R22). -/
  err : BitVec 4
  /-- STATUS.OV, sticky (R23). -/
  ov : Bool
  /-- STATUS.CLO (R24). -/
  clo : Bool
  /-- STATUS.CHI (R24). -/
  chi : Bool
  /-- A, FXMUL operand x (R28). -/
  a : Word
  /-- B, FXMUL operand y (R28). -/
  b : Word
  /-- R, the narrowed product (R29). -/
  r : Word
  /-- PLO, product bits [31:0] (R29). -/
  plo : Word
  /-- PHI, product bits [63:32] (R29). -/
  phi : Word
  /-- RAW, the raw ADC sample (R30). -/
  raw : Word
  /-- VPIN, the voltage after the divider (R30). -/
  vpin : Word
  /-- V, the sensor voltage (R30). -/
  v : Word
  /-- FMM, the polynomial's value in mm (R33). -/
  fmm : Word
  /-- UMR, the distance in µm before clamping (R33). -/
  umr : Word
  /-- UM, the distance in µm (R33). -/
  um : Word
  /-- MM, the distance in mm (R33). -/
  mm : Word
  /-- CB0..CB3, the substitute curve's coefficients (R32). -/
  cb0 : Word
  cb1 : Word
  cb2 : Word
  cb3 : Word
deriving DecidableEq, Repr

/-- The width of a host access (20_memory.md R48). -/
inductive Width where
  | byte | half | word
deriving DecidableEq, Repr

/-- What a host access does (20_memory.md R53, R54). -/
inductive AccessOp where
  | read
  | write (data : Word)
deriving DecidableEq, Repr

/-- One host access to the window: the software context that issues it (20_memory.md R58), its width, its byte
offset from the window base, and what it does. -/
structure Access where
  ctx : Nat
  width : Width
  off : Offset
  op : AccessOp
deriving DecidableEq, Repr

/-- What can happen to FXDC from outside: a host access (70_reset_and_hazards.md R175), the platform's reset
(R161), a power loss (60_exceptions.md R157). -/
inductive Event where
  | access (x : Access)
  | reset
  | powerLoss
deriving DecidableEq, Repr

/-- A value that a host read returned, with the context that read and the offset read. -/
structure ReadResult where
  ctx : Nat
  off : Offset
  value : Word
deriving DecidableEq, Repr

/-- The whole machine: FXDC's registers and constants, and its environment as plain data (DESIGN CHOICE, log 1, 6, 7, 9). -/
structure State where
  /-- The stored registers. -/
  regs : Regs
  /-- VREF, which reads as P_VREF (10_state.md R35). -/
  vref : PosQ
  /-- DIVR, which reads as P_DIVR (10_state.md R35). -/
  divr : PosQ
  /-- The model's own: the events still to come, in bus order, first the next one (20_memory.md R55). -/
  pending : List Event
  /-- The model's own: the values reads returned, oldest first (70_reset_and_hazards.md R174). -/
  returned : List ReadResult
  /-- The model's own: how many power losses there were, the argument of their free values (DESIGN CHOICE, log 7). -/
  powerLosses : Nat
deriving DecidableEq, Repr

/-- Why the machine stops with a fault: never. FXDC takes no traps (60_exceptions.md R149), an error is a code
in STATUS.ERR and the machine goes on (R141), so the type has no constructor (DEDUCED, log 17, safe). -/
inductive Fault
deriving DecidableEq, Repr

/-- Why the model gives a step no meaning. -/
inductive Refusal where
  /-- Raised by an arm of exec whose command has no meaning yet (there is none). Safe. -/
  | notModelled (mnemonic : String)
  /-- Raised by a byte or halfword host access: the spec refuses it (20_memory.md R48). Safe. -/
  | narrowAccess
  /-- Raised by a 32-bit host access at an offset that is no multiple of 4: the spec refuses it
  (20_memory.md R48). Safe. -/
  | misalignedAccess
deriving DecidableEq, Repr

/-- The stored registers at reset (10_state.md R39, 70_reset_and_hazards.md R161). -/
def Regs.reset : Regs where
  res := 0#5
  csel := false
  cclamp := true
  err := 0#4
  ov := false
  clo := false
  chi := false
  a := 0#32
  b := 0#32
  r := 0#32
  plo := 0#32
  phi := 0#32
  raw := 0#32
  vpin := 0#32
  v := 0#32
  fmm := 0#32
  umr := 0#32
  um := 0#32
  mm := 0#32
  cb0 := 0xFFFF14CA#32
  cb1 := 0x0001CCD3#32
  cb2 := 0xFFFFBEAB#32
  cb3 := 0x00000439#32

/-- The machine right after reset (10_state.md R39). No event is pending and nothing was read: DESIGN CHOICE for
the model's own fields (log 20). VREF and DIVR are the free parameters (log 3). -/
def State.reset : State where
  regs := Regs.reset
  vref := Config.pVref
  divr := Config.pDivr
  pending := []
  returned := []
  powerLosses := 0

end Sys2Proof.Machine
end

