-- ==== Sys2Proof/Machine/Operands.lean ====
section
/-! DEFINITION. Where the implicit operands of the commands come from (30_encoding.md R68): the legal
resolutions, the derived and constant registers, the coefficient banks; and the register map (10_state.md R18). -/

namespace Sys2Proof.Machine

/-- The code of an outcome in STATUS.ERR (10_state.md R22). -/
def ErrCode.code : ErrCode → BitVec 4
  | .ok => 0#4
  | .ecfg => 1#4
  | .enocfg => 2#4
  | .erange => 3#4
  | .eill => 4#4

/-- The six legal resolutions (00_scope.md R8). -/
def legalRes (res : BitVec 5) : Bool :=
  match res.toNat with
  | 6 | 8 | 10 | 12 | 14 | 16 => true
  | _ => false

/-- STATUS.CFGV, derived from CFG (10_state.md R25). -/
def Regs.cfgv (g : Regs) : Bool := legalRes g.res

/-- ADCMAX: 2^CFG.RES when CFGV = 1, else 0 (10_state.md R34). -/
def Regs.adcMax (g : Regs) : Nat := if g.cfgv then 2 ^ g.res.toNat else 0

/-- MAXUM, the maximum distance in µm (00_scope.md R10). -/
def maxUm : Int := 10000

/-- DB0 (10_state.md R31). -/
def defaultB0 : Word := 0xFFFF14CA#32
/-- DB1 (10_state.md R31). -/
def defaultB1 : Word := 0x0001CCD3#32
/-- DB2 (10_state.md R31). -/
def defaultB2 : Word := 0xFFFFBEAB#32
/-- DB3 (10_state.md R31). -/
def defaultB3 : Word := 0x00000439#32

/-- One bank of curve coefficients (10_state.md R38). -/
structure Coeffs where
  b0 : Word
  b1 : Word
  b2 : Word
  b3 : Word
deriving DecidableEq, Repr

/-- The bank that CFG.CSEL selects (42_response_curve.md R112). -/
def Regs.bank (g : Regs) : Coeffs :=
  if g.csel then ⟨g.cb0, g.cb1, g.cb2, g.cb3⟩ else ⟨defaultB0, defaultB1, defaultB2, defaultB3⟩

/-- Whether POLY clamps: always for the default curve, as CCLAMP says for a substitute one
(42_response_curve.md R110). -/
def Regs.clampOn (g : Regs) : Bool := !g.csel || g.cclamp

/-- CFG as the host reads it (10_state.md R19): [4:0] RES, [8] CSEL, [9] CCLAMP, the rest 0. -/
def Regs.cfgWord (g : Regs) : Word :=
  (0#22 ++ (BitVec.ofBool g.cclamp ++ (BitVec.ofBool g.csel ++ (0#3 ++ g.res))) : BitVec (22 + (1 + (1 + (3 + 5)))))

/-- STATUS as the host reads it (10_state.md R21, 20_memory.md R53): {15'b0, CFGV, 5'b0, CHI, CLO, OV, 4'b0, ERR}. -/
def Regs.statusWord (g : Regs) : Word :=
  (0#15 ++ (BitVec.ofBool g.cfgv ++ (0#5 ++ (BitVec.ofBool g.chi ++ (BitVec.ofBool g.clo ++ (BitVec.ofBool g.ov ++
    (0#4 ++ g.err)))))) : BitVec (15 + (1 + (5 + (1 + (1 + (1 + (4 + 4))))))))

/-- Byte offset of a register from the window base (10_state.md R18). -/
def Reg.offset : Reg → Offset
  | .cfg => 0x00#8
  | .status => 0x04#8
  | .cmd => 0x08#8
  | .a => 0x0C#8
  | .b => 0x10#8
  | .r => 0x14#8
  | .plo => 0x18#8
  | .phi => 0x1C#8
  | .raw => 0x20#8
  | .vpin => 0x24#8
  | .v => 0x28#8
  | .fmm => 0x2C#8
  | .umr => 0x30#8
  | .um => 0x34#8
  | .mm => 0x38#8
  | .adcmax => 0x3C#8
  | .vref => 0x40#8
  | .divr => 0x44#8
  | .maxum => 0x48#8
  | .db0 => 0x4C#8
  | .db1 => 0x50#8
  | .db2 => 0x54#8
  | .db3 => 0x58#8
  | .cb0 => 0x5C#8
  | .cb1 => 0x60#8
  | .cb2 => 0x64#8
  | .cb3 => 0x68#8

/-- The register at an offset; none at a reserved offset 0x6C..0xFC (10_state.md R18). -/
def regAt (off : Offset) : Option Reg :=
  match off.toNat with
  | 0x00 => some .cfg
  | 0x04 => some .status
  | 0x08 => some .cmd
  | 0x0C => some .a
  | 0x10 => some .b
  | 0x14 => some .r
  | 0x18 => some .plo
  | 0x1C => some .phi
  | 0x20 => some .raw
  | 0x24 => some .vpin
  | 0x28 => some .v
  | 0x2C => some .fmm
  | 0x30 => some .umr
  | 0x34 => some .um
  | 0x38 => some .mm
  | 0x3C => some .adcmax
  | 0x40 => some .vref
  | 0x44 => some .divr
  | 0x48 => some .maxum
  | 0x4C => some .db0
  | 0x50 => some .db1
  | 0x54 => some .db2
  | 0x58 => some .db3
  | 0x5C => some .cb0
  | 0x60 => some .cb1
  | 0x64 => some .cb2
  | 0x68 => some .cb3
  | _ => none

/-- The value a register reads as (10_state.md R18, R27, R34, R35; 20_memory.md R53). -/
def State.readReg (s : State) : Reg → Word
  | .cfg => s.regs.cfgWord
  | .status => s.regs.statusWord
  | .cmd => 0#32
  | .a => s.regs.a
  | .b => s.regs.b
  | .r => s.regs.r
  | .plo => s.regs.plo
  | .phi => s.regs.phi
  | .raw => s.regs.raw
  | .vpin => s.regs.vpin
  | .v => s.regs.v
  | .fmm => s.regs.fmm
  | .umr => s.regs.umr
  | .um => s.regs.um
  | .mm => s.regs.mm
  | .adcmax => BitVec.ofNat 32 s.regs.adcMax
  | .vref => s.vref.word
  | .divr => s.divr.word
  | .maxum => wrap32 maxUm
  | .db0 => defaultB0
  | .db1 => defaultB1
  | .db2 => defaultB2
  | .db3 => defaultB3
  | .cb0 => s.regs.cb0
  | .cb1 => s.regs.cb1
  | .cb2 => s.regs.cb2
  | .cb3 => s.regs.cb3

/-- `BusRead(off)` (20_memory.md R53): the register at the offset, 0 at a reserved one. -/
def State.busRead (s : State) (off : Offset) : Word :=
  match regAt off with
  | some x => s.readReg x
  | none => 0#32

/-- The window as bytes, little-endian: the byte at offset 4k + i is bits [8i+7 : 8i] of the register at 4k
(20_memory.md R49). -/
def State.windowByte (s : State) (off : Offset) : Byte :=
  byteLane (s.busRead (BitVec.ofNat 8 (off.toNat - off.toNat % 4))) (off.toNat % 4)

end Sys2Proof.Machine
end

