-- ==== Sys2Proof/Machine/Flags.lean ====
section
/-! DEFINITION. The flags of STATUS: OV sticky (10_state.md R23), CLO and CHI (R24). -/

namespace Sys2Proof.Machine

/-- `if ov: set OV`: a command sets OV on a narrowing overflow and never clears it (10_state.md R23). -/
def Regs.setOvIf (g : Regs) (ov : Bool) : Regs := { g with ov := g.ov || ov }

/-- A clamping command that applies the clamp to u: CLO ← (u < 0), CHI ← (u > 10000) (10_state.md R24). -/
def Regs.writeClampFlags (g : Regs) (u : Int) : Regs :=
  { g with clo := decide (u < 0), chi := decide (u > maxUm) }

/-- A clamping command that skips the clamp, and CLRST: CLO ← 0, CHI ← 0 (10_state.md R24). -/
def Regs.clearClampFlags (g : Regs) : Regs := { g with clo := false, chi := false }

/-- OV ← 0: CLRST, and a STATUS write with bit 8 set (10_state.md R23, R26). -/
def Regs.clearOv (g : Regs) : Regs := { g with ov := false }

end Sys2Proof.Machine
end

