-- ==== Sys2Proof/Machine/Ops.lean ====
section
/-! DEFINITION. The shared operations: how a command or a CFG write ends (60_exceptions.md R141), reset
(70_reset_and_hazards.md R161) and power loss (60_exceptions.md R157). There is no return from an error, since
nothing is saved (60_exceptions.md R150). -/

namespace Sys2Proof.Machine

/-- Apply a register update. -/
def State.mapRegs (s : State) (f : Regs → Regs) : State := { s with regs := f s.regs }

/-- STATUS.ERR ← code (10_state.md R22). -/
def State.setErr (s : State) (c : ErrCode) : State := s.mapRegs fun g => { g with err := c.code }

/-- `raise Err(code)`, the only exception FXDC has: STATUS.ERR ← code and no other register, field or flag
changes; control moves nowhere (60_exceptions.md R141, R149). -/
def State.raise (s : State) (c : ErrCode) : State := s.setErr c

/-- A command that completes: STATUS.ERR ← OK (10_state.md R22). -/
def State.complete (s : State) : State := s.setErr .ok

/-- How a command ends: it completes with what its units wrote, or it raises the error that its units found
before they wrote anything (60_exceptions.md R141, R142). -/
def State.conclude (s : State) (r : Except ErrCode State) : Host.Outcome State Fault Refusal :=
  match r with
  | .ok t => .next t.complete
  | .error c => .next (s.raise c)

/-- The platform's reset: every register to its reset value and no other effect; the constants VREF and DIVR
keep their value (70_reset_and_hazards.md R161, 10_state.md R39; DEDUCED, log 8). -/
def State.platformReset (s : State) : State := { s with regs := Regs.reset }

/-- The registers after power loss number n: any value (93_implementation_defined.md I14, 60_exceptions.md R157;
DESIGN CHOICE, log 7). Each register, and each field of CFG and STATUS, is a free draw of its own. -/
def powerLossRegs (n : Nat) : Regs where
  res := (Config.powerLossWord n 0).extractLsb' 0 5
  csel := (Config.powerLossWord n 1).getLsbD 0
  cclamp := (Config.powerLossWord n 2).getLsbD 0
  err := (Config.powerLossWord n 3).extractLsb' 0 4
  ov := (Config.powerLossWord n 4).getLsbD 0
  clo := (Config.powerLossWord n 5).getLsbD 0
  chi := (Config.powerLossWord n 6).getLsbD 0
  a := Config.powerLossWord n 7
  b := Config.powerLossWord n 8
  r := Config.powerLossWord n 9
  plo := Config.powerLossWord n 10
  phi := Config.powerLossWord n 11
  raw := Config.powerLossWord n 12
  vpin := Config.powerLossWord n 13
  v := Config.powerLossWord n 14
  fmm := Config.powerLossWord n 15
  umr := Config.powerLossWord n 16
  um := Config.powerLossWord n 17
  mm := Config.powerLossWord n 18
  cb0 := Config.powerLossWord n 19
  cb1 := Config.powerLossWord n 20
  cb2 := Config.powerLossWord n 21
  cb3 := Config.powerLossWord n 22

/-- A power loss leaves every register at any value until reset (93_implementation_defined.md I14); the constants
are the circuit's and stay (41_voltage_scaling.md R102). -/
def State.losePower (s : State) : State :=
  { s with regs := powerLossRegs s.powerLosses, powerLosses := s.powerLosses + 1 }

end Sys2Proof.Machine
end

