-- ==== Sys2Proof/Machine/Multiplier.lean ====
section
/-! DEFINITION. FXMUL, the fixed-point multiplier (40_fixed_point.md R86-R89). -/

namespace Sys2Proof.Machine

/-- The unit's register writes: {PHI, PLO} the exact 64-bit product, R its shifted and narrowed value, OV when
that did not fit (40_fixed_point.md R86). -/
def Regs.multiply (g : Regs) (sh : Nat) : Regs :=
  let p : BitVec 64 := BitVec.ofInt 64 (s32 g.a * s32 g.b)
  let q := fxmul (s32 g.a) (s32 g.b) sh
  { g with plo := p.extractLsb' 0 32, phi := p.extractLsb' 32 32, r := q.word }.setOvIf q.ov

/-- FXMUL sh (40_fixed_point.md R86). A shift of 64 or more has no word (30_encoding.md R69), so no step reaches
it; the function is the same formula there (DESIGN CHOICE, log 15). -/
def execFxmul (sh : Nat) (s : State) : Host.Outcome State Fault Refusal :=
  s.conclude (.ok (s.mapRegs fun g => g.multiply sh))

end Sys2Proof.Machine
end

