-- ==== Sys2Proof/Machine/Convert.lean ====
section
/-! DEFINITION. CLAMP and TOMM, the output clamper and the unit converter (43_clamp_convert.md R121-R128). -/

namespace Sys2Proof.Machine

/-- The clamper's register writes (43_clamp_convert.md R121). -/
def Regs.saturate (g : Regs) : Regs :=
  { g with um := wrap32 (clampTo (s32 g.um) 0 maxUm) }.writeClampFlags (s32 g.um)

/-- CLAMP (43_clamp_convert.md R121). -/
def execClamp (s : State) : Host.Outcome State Fault Refusal :=
  s.conclude (.ok (s.mapRegs Regs.saturate))

/-- The converter's register write: MM ← trunc(u / 1000) (43_clamp_convert.md R126). -/
def Regs.toMm (g : Regs) : Regs := { g with mm := wrap32 (truncDiv (s32 g.um) 1000) }

/-- TOMM (43_clamp_convert.md R126). -/
def execTomm (s : State) : Host.Outcome State Fault Refusal :=
  s.conclude (.ok (s.mapRegs Regs.toMm))

end Sys2Proof.Machine
end

