-- ==== Sys2Proof/Machine/Curve.lean ====
section
/-! DEFINITION. POLY, the cubic response-curve evaluator (42_response_curve.md R106-R114). -/

namespace Sys2Proof.Machine

/-- The polynomial f(V) in Q16.16 mm: powers by successive fx16, the four terms summed exactly and narrowed once;
`ov` is o1 or … or o6 (42_response_curve.md R106, R107, R108). -/
def cubic (c : Coeffs) (v : Word) : Narrowed :=
  let v2 := fx16 (s32 v) (s32 v)
  let v3 := fx16 (s32 v2.word) (s32 v)
  let t1 := fx16 (s32 c.b1) (s32 v)
  let t2 := fx16 (s32 c.b2) (s32 v2.word)
  let t3 := fx16 (s32 c.b3) (s32 v3.word)
  let f := narrow (s32 t3.word + s32 t2.word + s32 t1.word + s32 c.b0)
  ⟨f.word, v2.ov || v3.ov || t1.ov || t2.ov || t3.ov || f.ov⟩

/-- The rescale to integer µm, rounded down: (fmm · 1000) >>a 16 (42_response_curve.md R109, D9). -/
def rescaleUm (fmm : Word) : Int := asr (s32 fmm * 1000) 16

/-- Write UM and the clamp flags from the unclamped u (42_response_curve.md R106, R110). -/
def Regs.writeDistance (g : Regs) (u : Int) : Regs :=
  if g.clampOn then { g with um := wrap32 (clampTo u 0 maxUm) }.writeClampFlags u
  else { g with um := wrap32 u }.clearClampFlags

/-- The evaluator's register writes (42_response_curve.md R106). -/
def Regs.evalCurve (g : Regs) : Regs :=
  let f := cubic g.bank g.v
  let u := rescaleUm f.word
  ({ g with fmm := f.word, umr := wrap32 u }.writeDistance u).setOvIf f.ov

/-- POLY (42_response_curve.md R106). It needs no configured resolution (D30). -/
def execPoly (s : State) : Host.Outcome State Fault Refusal :=
  s.conclude (.ok (s.mapRegs Regs.evalCurve))

end Sys2Proof.Machine
end

