-- ==== Sys2Proof/Machine/Scaler.lean ====
section
/-! DEFINITION. SCALE, the ADC-to-voltage scaler (41_voltage_scaling.md R96-R102). -/

namespace Sys2Proof.Machine

/-- Step 1: VPIN = floor(raw · V_ref / (ADCMAX − 1)), exact (41_voltage_scaling.md R96, R97, D15). -/
def pinVoltage (raw adcMax : Nat) (vref : Int) : Int := raw * vref / ((adcMax : Int) - 1)

/-- The scaling unit: ENOCFG while unconfigured, ERANGE when u32(RAW) ≥ ADCMAX, both before any write; else
VPIN, V and OV (41_voltage_scaling.md R96, R98; priority 60_exceptions.md R146). -/
def State.scaleUnit (s : State) : Except ErrCode State :=
  if s.regs.cfgv = false then .error .enocfg
  else if u32 s.regs.raw ≥ s.regs.adcMax then .error .erange
  else
    let vpin := pinVoltage (u32 s.regs.raw) s.regs.adcMax (s32 s.vref.word)
    let v := fx16 vpin (s32 s.divr.word)
    .ok (s.mapRegs fun g => { g with vpin := wrap32 vpin, v := v.word }.setOvIf v.ov)

/-- SCALE (41_voltage_scaling.md R96). -/
def execScale (s : State) : Host.Outcome State Fault Refusal := s.conclude s.scaleUnit

end Sys2Proof.Machine
end

