-- ==== Sys2Proof/Machine/Orchestration.lean ====
section
/-! DEFINITION. READUM, READMM, NOP and CLRST (44_orchestration.md R131-R138). -/

namespace Sys2Proof.Machine

/-- READUM: SCALE, then POLY on the V just written; an error of SCALE ends it (44_orchestration.md R131). -/
def execReadum (s : State) : Host.Outcome State Fault Refusal :=
  s.conclude (s.scaleUnit.map fun t => t.mapRegs Regs.evalCurve)

/-- READMM: SCALE, POLY, then TOMM on the UM just written (44_orchestration.md R134). -/
def execReadmm (s : State) : Host.Outcome State Fault Refusal :=
  s.conclude (s.scaleUnit.map fun t => t.mapRegs fun g => g.evalCurve.toMm)

/-- NOP: STATUS.ERR ← OK (44_orchestration.md R137). -/
def execNop (s : State) : Host.Outcome State Fault Refusal := s.conclude (.ok s)

/-- CLRST: ERR ← OK, OV, CLO and CHI ← 0 (44_orchestration.md R138). -/
def execClrst (s : State) : Host.Outcome State Fault Refusal :=
  s.conclude (.ok (s.mapRegs fun g => g.clearOv.clearClampFlags))

end Sys2Proof.Machine
end

