-- ==== Sys2Proof/Machine/Dispatch.lean ====
section
/-! DEFINITION. One arm per command (30_encoding.md R66, R71). -/

namespace Sys2Proof.Machine

def exec (i : Instr) (s : State) : Host.Outcome State Fault Refusal :=
  match i with
  | .nop => Sys2Proof.Machine.execNop s
  | .fxmul sh => Sys2Proof.Machine.execFxmul sh s
  | .scale => Sys2Proof.Machine.execScale s
  | .poly => Sys2Proof.Machine.execPoly s
  | .clamp => Sys2Proof.Machine.execClamp s
  | .tomm => Sys2Proof.Machine.execTomm s
  | .readum => Sys2Proof.Machine.execReadum s
  | .readmm => Sys2Proof.Machine.execReadmm s
  | .clrst => Sys2Proof.Machine.execClrst s

end Sys2Proof.Machine
end

