-- ==== Sys2Proof/Machine/Bus.lean ====
section
/-! DEFINITION. Host accesses to the window (20_memory.md R46-R55, 10_state.md R20, R26, R27, R36), platform
events, and the platform's placing of the window. -/

namespace Sys2Proof.Machine

/-- `Execute(w)` (30_encoding.md R66): the decoded command runs to completion; an illegal word raises EILL
(R72). -/
def executeWord (w : Word) (s : State) : Host.Outcome State Fault Refusal :=
  match decode w with
  | .ok i => exec i s
  | .error _ => .next (s.raise .eill)

/-- A validated CFG write (10_state.md R20): an illegal RES is rejected whole with ECFG; a legal word replaces
RES, CSEL and CCLAMP and sets ERR to OK. Reserved bits are dropped (R19). -/
def State.writeCfg (s : State) (w : Word) : State :=
  let res : BitVec 5 := w.extractLsb' 0 5
  if legalRes res then
    (s.mapRegs fun g => { g with res := res, csel := w.getLsbD 8, cclamp := w.getLsbD 9 }).complete
  else s.raise .ecfg

/-- A STATUS write clears OV if bit 8 is set and ignores every other bit (10_state.md R26). -/
def State.writeStatus (s : State) (w : Word) : State :=
  if w.getLsbD 8 then s.mapRegs Regs.clearOv else s

/-- A host write to a register (20_memory.md R54; a read-only register ignores it, 10_state.md R36). -/
def State.writeReg (s : State) (x : Reg) (w : Word) : Host.Outcome State Fault Refusal :=
  match x with
  | .cfg => .next (s.writeCfg w)
  | .status => .next (s.writeStatus w)
  | .cmd => executeWord w s
  | .a => .next (s.mapRegs fun g => { g with a := w })
  | .b => .next (s.mapRegs fun g => { g with b := w })
  | .raw => .next (s.mapRegs fun g => { g with raw := w })
  | .v => .next (s.mapRegs fun g => { g with v := w })
  | .um => .next (s.mapRegs fun g => { g with um := w })
  | .cb0 => .next (s.mapRegs fun g => { g with cb0 := w })
  | .cb1 => .next (s.mapRegs fun g => { g with cb1 := w })
  | .cb2 => .next (s.mapRegs fun g => { g with cb2 := w })
  | .cb3 => .next (s.mapRegs fun g => { g with cb3 := w })
  | .r | .plo | .phi | .vpin | .fmm | .umr | .mm | .adcmax | .vref | .divr | .maxum
  | .db0 | .db1 | .db2 | .db3 => .next s

/-- `BusWrite(off, w)` (20_memory.md R54): a reserved offset ignores it (10_state.md R36). -/
def State.busWrite (s : State) (off : Offset) (w : Word) : Host.Outcome State Fault Refusal :=
  match regAt off with
  | some x => s.writeReg x w
  | none => .next s

/-- A read returns its value to the context that issued it and changes nothing else (20_memory.md R51). -/
def State.busReturn (s : State) (ctx : Nat) (off : Offset) : State :=
  { s with returned := s.returned ++ [⟨ctx, off, s.busRead off⟩] }

/-- An aligned 32-bit access (20_memory.md R53, R54). -/
def State.wordAccess (s : State) (x : Access) : Host.Outcome State Fault Refusal :=
  match x.op with
  | .read => .next (s.busReturn x.ctx x.off)
  | .write w => s.busWrite x.off w

/-- One host access, atomic (20_memory.md R50). A byte or halfword access and a misaligned one are refused
(R48; the width is looked at first, DESIGN CHOICE, log 5). -/
def State.perform (s : State) (x : Access) : Host.Outcome State Fault Refusal :=
  match x.width with
  | .byte => .refused .narrowAccess
  | .half => .refused .narrowAccess
  | .word => if x.off.toNat % 4 = 0 then s.wordAccess x else .refused .misalignedAccess

/-- One event from outside: an access, the platform's reset (70_reset_and_hazards.md R161), a power loss
(60_exceptions.md R157). -/
def State.handle (s : State) (e : Event) : Host.Outcome State Fault Refusal :=
  match e with
  | .access x => s.perform x
  | .reset => .next s.platformReset
  | .powerLoss => .next s.losePower

/-- `wr REG, value` (30_encoding.md R75), by context `ctx`. -/
def wr (ctx : Nat) (x : Reg) (w : Word) : Event := .access ⟨ctx, .word, x.offset, .write w⟩

/-- `rd REG` (30_encoding.md R75), by context `ctx`. -/
def rd (ctx : Nat) (x : Reg) : Event := .access ⟨ctx, .word, x.offset, .read⟩

/-- `cmd` with any word, legal or not (30_encoding.md R75): a write of the word to CMD. -/
def cmdWord (ctx : Nat) (w : Word) : Event := wr ctx .cmd w

/-- `cmd <mnemonic ...>` (30_encoding.md R75). -/
def cmd (ctx : Nat) (i : Instr) : Event := cmdWord ctx (encode i)

/-- The window offset that a platform address selects, none outside the 256-byte window (20_memory.md R46).
For the FXDC of this model `base` is Config.pBase; every instance has its own (60_exceptions.md R155; DESIGN CHOICE, log 4). -/
def windowOffset? (base addr : Nat) : Option Offset :=
  if base ≤ addr ∧ addr < base + 256 then some (BitVec.ofNat 8 (addr - base)) else none

/-- The event that a host access at a platform address is for this FXDC; none outside its window. -/
def accessAt? (ctx : Nat) (width : Width) (addr : Nat) (op : AccessOp) : Option Event :=
  (windowOffset? Config.pBase addr).map fun off => .access ⟨ctx, width, off, op⟩

end Sys2Proof.Machine
end

