-- ==== Sys2Proof/Machine/Step.lean ====
section
/-! DEFINITION. One step: the next event of the bus is handled to completion (20_memory.md R55). -/

namespace Sys2Proof.Machine

/-- FXDC takes the next event, one at a time and in bus order (20_memory.md R55). With no event it holds its
state: it acts on nothing but the host's accesses (60_exceptions.md R147, R157; DESIGN CHOICE, log 2). -/
def step (s : State) : Host.Outcome State Fault Refusal :=
  match s.pending with
  | [] => .next s
  | e :: rest => ({ s with pending := rest } : State).handle e

/-- The same state with a write of the command word to CMD as its next event: this is where a command comes from
(10_state.md R17; DESIGN CHOICE, log 1). `w` is cut to the row's `nbits` bits, the bits above them are 0. -/
def State.withFetchWord (s : State) (nbits w : Nat) : State :=
  { s with pending := cmdWord 0 (BitVec.ofNat 32 (w % 2 ^ nbits)) :: s.pending }

end Sys2Proof.Machine
end

