-- ==== Sys2Proof/Machine/Assembler.lean ====
section
/-! DEFINITION. The assembler syntax and the pseudo-instructions (30_encoding.md R74, R76). A line is a list of
characters. Blanks and `;` comments: DESIGN CHOICE (log 16). -/

namespace Sys2Proof.Machine

/-- A line's text before its `;` comment. -/
def dropComment : List Char → List Char
  | [] => []
  | c :: rest => if c = ';' then [] else c :: dropComment rest

/-- The words of a line, separated by spaces and tabs, in lower case ("case-insensitive", 30_encoding.md R74). -/
def wordsOf : List Char → List (List Char)
  | [] => []
  | c :: rest =>
    if c = ' ' ∨ c = '\t' then [] :: wordsOf rest
    else match wordsOf rest with
      | [] => [[c.toLower]]
      | w :: ws => (c.toLower :: w) :: ws

/-- The non-empty words of a line without its comment. -/
def tokens (line : List Char) : List (List Char) :=
  (wordsOf (dropComment line)).filter fun w => !w.isEmpty

/-- The value of a digit in a base. -/
def digit? (base : Nat) (c : Char) : Option Nat :=
  let n := c.toNat
  let d := if 48 ≤ n ∧ n ≤ 57 then some (n - 48) else if 97 ≤ n ∧ n ≤ 102 then some (n - 87) else none
  d.filter fun k => k < base

/-- A string of digits, the most significant first. -/
def digits? (base acc : Nat) : List Char → Option Nat
  | [] => some acc
  | c :: rest => (digit? base c).bind fun d => digits? base (acc * base + d) rest

/-- "a decimal or 0x number" (30_encoding.md R74). -/
def number? : List Char → Option Nat
  | [] => none
  | '0' :: 'x' :: c :: rest => digits? 16 0 (c :: rest)
  | c :: rest => digits? 10 0 (c :: rest)

/-- A mnemonic without an operand: the commands of 30_encoding.md R74 and the pseudo-instructions of R76. -/
def bareMnemonic? (m : List Char) : Option Instr :=
  if m = ['n', 'o', 'p'] then some .nop
  else if m = ['s', 'c', 'a', 'l', 'e'] then some .scale
  else if m = ['p', 'o', 'l', 'y'] then some .poly
  else if m = ['c', 'l', 'a', 'm', 'p'] then some .clamp
  else if m = ['t', 'o', 'm', 'm'] then some .tomm
  else if m = ['r', 'e', 'a', 'd', 'u', 'm'] then some .readum
  else if m = ['r', 'e', 'a', 'd', 'm', 'm'] then some .readmm
  else if m = ['c', 'l', 'r', 's', 't'] then some .clrst
  else if m = ['f', 'x', 'm', 'u', 'l'] then some (.fxmul 16)
  else if m = ['q', 'm', 'u', 'l'] then some (.fxmul 16)
  else if m = ['i', 'm', 'u', 'l'] then some (.fxmul 0)
  else none

/-- The command of one source line (30_encoding.md R74, R76); none when the line is no command. -/
def assemble? (line : List Char) : Option Instr :=
  match tokens line with
  | [m] => bareMnemonic? m
  | [m, n] =>
    if m = ['f', 'x', 'm', 'u', 'l'] then ((number? n).map Instr.fxmul).filter fun i => i.wf else none
  | _ => none

/-- The command word of one source line (30_encoding.md R74). -/
def assembleWord? (line : List Char) : Option Word := (assemble? line).map encode

end Sys2Proof.Machine
end

