-- ==== Sys2Proof/Machine/Driver.lean ====
section
/-! DEFINITION. The host convention of 60_exceptions.md R145: what a driver built on FXDC returns for each
outcome. It reads FXDC's registers and changes none of them. -/

namespace Sys2Proof.Machine

/-- What the driver's `init` returns (60_exceptions.md R145, kinds (a) and (b)). -/
inductive InitResult where
  | ok
  /-- the EINVAL-class configuration error, kind (a). -/
  | einval
  /-- the ENXIO-class error of the ADC collaborator, kind (b). -/
  | enxio
deriving DecidableEq, Repr

/-- What the driver's `read_um` or `read_mm` returns (60_exceptions.md R145). -/
inductive ReadOutcome where
  /-- the measurement in UM or MM. -/
  | measurement (x : Int)
  /-- the sampling error of the ADC collaborator, kind (c); the host issues no command. -/
  | eio
  /-- an outcome for which the document has no code: ENOCFG, ERANGE, EILL. -/
  | noCode (err : BitVec 4)
deriving DecidableEq, Repr

/-- `init` after the CFG write (60_exceptions.md R145): the configuration is validated first, and `adc_init` is
not called when it is rejected (the document's order, 70_reset_and_hazards.md R164; DEDUCED, log 19). `adcOk` is
the collaborator's answer. -/
def driverInit (g : Regs) (adcOk : Bool) : InitResult :=
  if g.err = ErrCode.ecfg.code then .einval else if adcOk then .ok else .enxio

/-- `read_um` after READUM, `read_mm` after READMM; `value` is what the host read from UM or MM
(60_exceptions.md R145). `sampleOk` is the ADC collaborator's answer. -/
def driverRead (g : Regs) (sampleOk : Bool) (value : Word) : ReadOutcome :=
  if !sampleOk then .eio
  else if g.err = ErrCode.ok.code then .measurement (s32 value)
  else .noCode g.err

end Sys2Proof.Machine
end

