-- ==== Sys2Proof/Safety.lean ====
section
/-! DEFINITION. What counts as a safe run: the accesses the host may make (70_reset_and_hazards.md R175), the
facts that hold of every state reachable from reset (R174), a run, its start states and its result (R174). -/

namespace Sys2Proof.Machine

/-- An access the spec gives a meaning: 32 bits wide at a multiple of 4 (20_memory.md R48). -/
def Access.legal (x : Access) : Bool := decide (x.width = .word) && decide (x.off.toNat % 4 = 0)

/-- An event the spec gives a meaning. -/
def Event.legal : Event → Bool
  | .access x => x.legal
  | .reset => true
  | .powerLoss => true

/-- Facts about the stored registers that the spec states of every reachable state (which states are reachable is
State.Reachable; these do not say all of it): CFG.RES is 0 or a legal
resolution, CLO and CHI are never both 1 (70_reset_and_hazards.md R174, 10_state.md R24), ERR is one of the codes
0..4 (10_state.md R22). -/
def Regs.Wf (g : Regs) : Prop :=
  (g.res = 0#5 ∨ legalRes g.res = true) ∧ ¬(g.clo = true ∧ g.chi = true) ∧ g.err.toNat ≤ 4

/-- The invariant of a run without a power loss: after one the registers hold any value until reset
(93_implementation_defined.md I14). -/
def State.Inv (s : State) : Prop := s.regs.Wf ∧ Event.powerLoss ∉ s.pending

/-- A host read: it has no side effect (20_memory.md R51). -/
def Event.isRead : Event → Bool
  | .access x => decide (x.op = .read)
  | .reset => false
  | .powerLoss => false

/-- The result of a run: the final contents of the 27 registers, by offset 4k, and the values its reads returned
(70_reset_and_hazards.md R174). -/
def State.result (s : State) : List Word × List ReadResult :=
  ((List.range 27).map fun k => s.busRead (BitVec.ofNat 8 (4 * k)), s.returned)

/-- The state at the start of a run of these accesses from s: the accesses are still to come and nothing has been
read yet (70_reset_and_hazards.md R174; the queue is log 1). -/
def State.startRun (s : State) (xs : List Access) : State := { s with pending := xs.map .access, returned := [] }

/-- A run: a finite sequence of accesses that the spec gives a meaning, from s, which ends in t when the last one has
completed; no reset, power loss or refused access interrupts it (70_reset_and_hazards.md R174). -/
def State.RunsTo (s : State) (xs : List Access) (t : State) : Prop :=
  (∀ x ∈ xs, x.legal = true) ∧ Host.Core.run Sys2Proof.core xs.length (s.startRun xs) = .next t

/-- The reset state of an FXDC with these parameters, which reset does not touch (10_state.md R39). -/
def State.resetWith (vref divr : PosQ) : State := { State.reset with vref := vref, divr := divr }

/-- FXDC's registers in s are reachable from reset: some run from the reset state with the parameters of s leaves
them. The environment of s (pending, returned, powerLosses) is not FXDC's and is free (DEDUCED, log 21). A start state
of a run is the reset state or another reachable one (70_reset_and_hazards.md R174). -/
def State.Reachable (s : State) : Prop :=
  ∃ (xs : List Access) (t : State), (State.resetWith s.vref s.divr).RunsTo xs t ∧ t.regs = s.regs

end Sys2Proof.Machine
end

