-- ==== Sys2Proof/Certificates/Slice0/Obligations.lean ====
section
/-! DEFINITION. The statements for the provers, file by file of spec/. The helpers of namespace Claims write the
rules' operations in the rules' own form (64-bit sign-extended products, arithmetic shifts, bit tests), not in
the model's. -/

namespace Sys2Proof.Claims

open Sys2Proof.Machine

/-- CFGV = 1: CFG.RES is one of the six legal resolutions (00_scope.md R8, 10_state.md R25). -/
def Configured (s : State) : Prop := s.regs.res.toNat ∈ [6, 8, 10, 12, 14, 16]

/-- u32(RAW) < 2^RES (41_voltage_scaling.md R96). -/
def SampleInRange (s : State) : Prop := s.regs.raw.toNat < 2 ^ s.regs.res.toNat

/-- STATUS.ERR ← code and nothing else. -/
def withErr (s : State) (code : BitVec 4) : State := { s with regs := { s.regs with err := code } }

/-- `sext_64(x) * sext_64(y)` (00_scope.md R14). -/
def prod64 (x y : Word) : BitVec 64 := x.signExtend 64 * y.signExtend 64

/-- `(sext_64(x) * sext_64(y)) >>a n` (00_scope.md R14). -/
def shifted (x y : Word) (n : Nat) : BitVec 64 := (prod64 x y).sshiftRight n

/-- The low 32 bits: `wrap32` (00_scope.md R13). -/
def low (q : BitVec 64) : Word := q.setWidth 32

/-- `not fits32(q)` (00_scope.md R13). -/
def overflows (q : BitVec 64) : Bool := decide (q.toInt < -2147483648 ∨ 2147483647 < q.toInt)

/-- VPIN: raw · P_VREF / (2^RES − 1) on unsigned 64-bit words (41_voltage_scaling.md R96). -/
def pin (s : State) : Word :=
  low (s.regs.raw.setWidth 64 * s.vref.word.setWidth 64 / BitVec.ofNat 64 (2 ^ s.regs.res.toNat - 1))

/-- The divider multiply of SCALE, before narrowing (41_voltage_scaling.md R96). -/
def sensor (s : State) : BitVec 64 := shifted (pin s) s.divr.word 16

/-- V², then V³ = V² · V (42_response_curve.md R107). -/
def square (v : Word) : Word := low (shifted v v 16)
def cube (v : Word) : Word := low (shifted (square v) v 16)

/-- S = t3 + t2 + t1 + b0 (42_response_curve.md R106, R108), in 64 bits, where it cannot overflow. -/
def sum (b0 b1 b2 b3 v : Word) : BitVec 64 :=
  (low (shifted b3 (cube v) 16)).signExtend 64 + (low (shifted b2 (square v) 16)).signExtend 64 +
    (low (shifted b1 v 16)).signExtend 64 + b0.signExtend 64

/-- o1 or o2 or o3 or o4 or o5 or o6 (42_response_curve.md R106). -/
def curveOverflows (b0 b1 b2 b3 v : Word) : Bool :=
  overflows (shifted v v 16) || overflows (shifted (square v) v 16) || overflows (shifted b1 v 16) ||
    overflows (shifted b2 (square v) 16) || overflows (shifted b3 (cube v) 16) || overflows (sum b0 b1 b2 b3 v)

/-- `(sext_64(fmm) * 1000) >>a 16`, a 32-bit value (42_response_curve.md R106, R109). -/
def micrometres (fmm : Word) : Word := low ((fmm.signExtend 64 * 1000#64).sshiftRight 16)

/-- `clamp(u, 0, 10000)` on signed words (00_scope.md R13). -/
def saturated (u : Word) : Word := if u.slt 0#32 then 0#32 else if (10000#32).slt u then 10000#32 else u

/-- The state POLY leaves for the coefficients b0..b3 when it clamps, or does not (42_response_curve.md R106). -/
def afterPoly (s : State) (clamps : Bool) (b0 b1 b2 b3 : Word) : State :=
  let fmm := low (sum b0 b1 b2 b3 s.regs.v)
  let u := micrometres fmm
  { s with regs := { s.regs with
      fmm := fmm
      umr := u
      um := if clamps then saturated u else u
      clo := clamps && u.slt 0#32
      chi := clamps && (10000#32).slt u
      ov := s.regs.ov || curveOverflows b0 b1 b2 b3 s.regs.v
      err := 0#4 } }

/-- The rows of 30_encoding.md R71: the command, its match and its mask. -/
def opcodeRows : List (Instr × Word × Word) :=
  [(.nop, 0x00000000#32, 0xFFFFFFFF#32), (.scale, 0x00000002#32, 0xFFFFFFFF#32),
   (.poly, 0x00000003#32, 0xFFFFFFFF#32), (.clamp, 0x00000004#32, 0xFFFFFFFF#32),
   (.tomm, 0x00000005#32, 0xFFFFFFFF#32), (.readum, 0x00000006#32, 0xFFFFFFFF#32),
   (.readmm, 0x00000007#32, 0xFFFFFFFF#32), (.clrst, 0x00000008#32, 0xFFFFFFFF#32)]

/-- "RSV ≠ 0, or OP ∈ 0x09..0xFF, or OP ≠ 0x01 and SH ≠ 0" (30_encoding.md R72). -/
def IllegalWord (w : Word) : Prop :=
  w >>> 14 ≠ 0#32 ∨ 9 ≤ (w &&& 0xFF#32).toNat ∨ ((w &&& 0xFF#32) ≠ 1#32 ∧ (w >>> 8) &&& 0x3F#32 ≠ 0#32)

/-- The value `BusRead(off)` returns, written from the table of 20_memory.md R53 and the fields of
10_state.md R19 and R21. -/
def readValue (s : State) (off : Offset) : Word :=
  let g := s.regs
  let cfgv : Bool := decide (g.res.toNat ∈ [6, 8, 10, 12, 14, 16])
  match off.toNat with
  | 0x00 => BitVec.ofNat 32 (g.res.toNat + 256 * g.csel.toNat + 512 * g.cclamp.toNat)
  | 0x04 => BitVec.ofNat 32 (g.err.toNat + 256 * g.ov.toNat + 512 * g.clo.toNat + 1024 * g.chi.toNat + 65536 * cfgv.toNat)
  | 0x08 => 0#32
  | 0x0C => g.a
  | 0x10 => g.b
  | 0x14 => g.r
  | 0x18 => g.plo
  | 0x1C => g.phi
  | 0x20 => g.raw
  | 0x24 => g.vpin
  | 0x28 => g.v
  | 0x2C => g.fmm
  | 0x30 => g.umr
  | 0x34 => g.um
  | 0x38 => g.mm
  | 0x3C => if cfgv then 1#32 <<< g.res.toNat else 0#32
  | 0x40 => s.vref.word
  | 0x44 => s.divr.word
  | 0x48 => 0x00002710#32
  | 0x4C => 0xFFFF14CA#32
  | 0x50 => 0x0001CCD3#32
  | 0x54 => 0xFFFFBEAB#32
  | 0x58 => 0x00000439#32
  | 0x5C => g.cb0
  | 0x60 => g.cb1
  | 0x64 => g.cb2
  | 0x68 => g.cb3
  | _ => 0#32

/-- The registers that only the host writes, or that it may write besides a command (20_memory.md R54). -/
def storable : List Reg := [.a, .b, .raw, .v, .um, .cb0, .cb1, .cb2, .cb3]

/-- The registers whose host writes are ignored (10_state.md R36). -/
def readOnly : List Reg :=
  [.r, .plo, .phi, .vpin, .fmm, .umr, .mm, .adcmax, .vref, .divr, .maxum, .db0, .db1, .db2, .db3]

/-- A 32-bit access at an offset, by a context. -/
def word (ctx : Nat) (off : Offset) (op : AccessOp) : Event := .access ⟨ctx, .word, off, op⟩

/-- The registers, by offset, that a command writes besides STATUS (10_state.md R40). -/
def wordsWritten : Instr → List Nat
  | .nop => []
  | .fxmul _ => [0x14, 0x18, 0x1C]
  | .scale => [0x24, 0x28]
  | .poly => [0x2C, 0x30, 0x34]
  | .clamp => [0x34]
  | .tomm => [0x38]
  | .readum => [0x24, 0x28, 0x2C, 0x30, 0x34]
  | .readmm => [0x24, 0x28, 0x2C, 0x30, 0x34, 0x38]
  | .clrst => []

/-- The commands that write STATUS.OV (10_state.md R40). -/
def writesOv : Instr → Bool
  | .fxmul _ | .scale | .poly | .readum | .readmm | .clrst => true
  | .nop | .clamp | .tomm => false

/-- The commands that write STATUS.CLO and STATUS.CHI (10_state.md R40). -/
def writesClampFlags : Instr → Bool
  | .poly | .clamp | .readum | .readmm | .clrst => true
  | .nop | .fxmul _ | .scale | .tomm => false

/-- The commands that can raise an error (60_exceptions.md R143). -/
def canFail : Instr → Bool
  | .scale | .readum | .readmm => true
  | .nop | .fxmul _ | .poly | .clamp | .tomm | .clrst => false

/-- The next event is a 32-bit write of some word at the offset. -/
def NextWrites (s : State) (off : Offset) (w : Word) : Prop :=
  ∃ ctx rest, s.pending = word ctx off (.write w) :: rest

/-- The next event comes from the platform, not from the host. -/
def NextIsPlatform (s : State) : Prop :=
  ∃ rest, s.pending = .reset :: rest ∨ s.pending = .powerLoss :: rest

/-- The same event, issued by another context. -/
def retagEvent (f : Nat → Nat) : Event → Event
  | .access x => .access { x with ctx := f x.ctx }
  | .reset => .reset
  | .powerLoss => .powerLoss

/-- The same state with the host contexts renamed. -/
def retag (f : Nat → Nat) (s : State) : State :=
  { s with
    pending := s.pending.map (retagEvent f)
    returned := s.returned.map fun x => { x with ctx := f x.ctx } }

/-- What 70_reset_and_hazards.md R174 and the command rules make of every state reachable from reset: RES is 0 or
legal, CLO and CHI are never both 1 (10_state.md R24), ERR is a code 0..4 (R22), never ENOCFG while configured nor
ERANGE while not; an unconfigured FXDC still has the CFG of reset and has never scaled (R20, R39); VPIN lies in
0..P_VREF (41_voltage_scaling.md R99), UMR is the rescaled FMM (42_response_curve.md R106), MM a quotient by 1000
(43_clamp_convert.md R127), and PHI, PLO and R the outputs of one multiply (40_fixed_point.md R86). -/
def ReachableFacts (s : State) : Prop :=
  (s.regs.res = 0#5 ∨ Configured s) ∧ ¬(s.regs.clo = true ∧ s.regs.chi = true) ∧ s.regs.err.toNat ≤ 4 ∧
  (Configured s → s.regs.err ≠ 2#4) ∧
  (¬Configured s → s.regs.err ≠ 3#4 ∧ s.busRead 0x00#8 = 0x00000200#32 ∧ s.regs.vpin = 0#32) ∧
  0 ≤ s.regs.vpin.toInt ∧ s.regs.vpin.toInt ≤ s.vref.word.toInt ∧
  s.regs.umr = micrometres s.regs.fmm ∧ |s.regs.mm.toInt| ≤ 2147483 ∧
  ∃ (x y : Word) (sh : Nat), sh < 64 ∧ (s.regs.phi ++ s.regs.plo : BitVec (32 + 32)) = prod64 x y ∧
    s.regs.r = low (shifted x y sh)

end Sys2Proof.Claims

open Sys2Proof Sys2Proof.Machine Sys2Proof.Claims

/-- 00_scope.md R9 and 41_voltage_scaling.md R102: the parameters are positive Q16.16 values, any other word is
refused, and no step changes them. -/
def Obligations.ParametersLegalAndConstant : Prop :=
  (∀ w : Word, (∃ p, PosQ.ofWord? w = some p ∧ p.word = w) ↔ 1 ≤ w.toInt ∧ w.toInt ≤ 2147483647) ∧
  (∀ w : Word, ¬(1 ≤ w.toInt) → PosQ.ofWord? w = none) ∧
  ∀ s t : State, step s = .next t → t.vref = s.vref ∧ t.divr = s.divr

/-- 10_state.md R31: each default coefficient is the nearest Q16.16 encoding of its real value (ties away from
zero), and DB0..DB3 read as these constants in every state. -/
def Obligations.DefaultCoefficientsEncodeTheReals : Prop :=
  ∀ s : State,
    s.busRead 0x4C#8 = qLiteral (-9188) 10000 ∧ qLiteral (-9188) 10000 = 0xFFFF14CA#32 ∧
    s.busRead 0x50#8 = qLiteral 18001 10000 ∧ qLiteral 18001 10000 = 0x0001CCD3#32 ∧
    s.busRead 0x54#8 = qLiteral (-2552) 10000 ∧ qLiteral (-2552) 10000 = 0xFFFFBEAB#32 ∧
    s.busRead 0x58#8 = qLiteral 165 10000 ∧ qLiteral 165 10000 = 0x00000439#32

/-- 10_state.md R31 and 30_encoding.md R76 (D11): the rounding of a real literal n / d is to nearest, and a tie
goes away from zero. -/
def Obligations.LiteralRoundingIsNearestTiesAway : Prop :=
  ∀ (n : Int) (d : Nat), 0 < d →
    2 * |roundHalfAway n d * d - n| ≤ d ∧
    (2 * |roundHalfAway n d * d - n| = d → |n| < |roundHalfAway n d * d|)

/-- 10_state.md R39: what every register reads after reset, whatever the parameters. -/
def Obligations.ResetRegisterValues : Prop :=
  ∀ k : Nat, k < 64 →
    State.reset.busRead (BitVec.ofNat 8 (4 * k)) =
      if k = 0 then 0x00000200#32
      else if k = 16 then Config.pVref.word
      else if k = 17 then Config.pDivr.word
      else if k = 18 then 0x00002710#32
      else if k = 19 ∨ k = 23 then 0xFFFF14CA#32
      else if k = 20 ∨ k = 24 then 0x0001CCD3#32
      else if k = 21 ∨ k = 25 then 0xFFFFBEAB#32
      else if k = 22 ∨ k = 26 then 0x00000439#32
      else 0x00000000#32

/-- 70_reset_and_hazards.md R161: a platform reset gives every register its reset value and has no other effect:
the constants keep their value. That it leaves the pending events and the values read alone is the model's
reading (log 8). -/
def Obligations.PlatformResetRestoresEveryRegister : Prop :=
  ∀ (s : State) (rest : List Event), s.pending = .reset :: rest →
    ∃ t, step s = .next t ∧
      (∀ off : Offset, off ≠ 0x40#8 → off ≠ 0x44#8 → t.busRead off = State.reset.busRead off) ∧
      t.busRead 0x40#8 = s.busRead 0x40#8 ∧ t.busRead 0x44#8 = s.busRead 0x44#8 ∧
      t.pending = rest ∧ t.returned = s.returned ∧ t.powerLosses = s.powerLosses

/-- 60_exceptions.md R157, 93_implementation_defined.md I14: whatever a power loss leaves in the registers, the
reset after it restores them all. The two events are the model's form of the rule (log 7, log 8). -/
def Obligations.ResetAfterPowerLossRestores : Prop :=
  ∀ (s : State) (rest : List Event), s.pending = .powerLoss :: .reset :: rest →
    ∃ t u, step s = .next t ∧ step t = .next u ∧ u.regs = Regs.reset ∧ u.vref = s.vref ∧ u.divr = s.divr ∧
      u.pending = rest ∧ u.returned = s.returned

/-- 20_memory.md R53: an aligned 32-bit read returns the value of the table, and 20_memory.md R51: it changes
nothing else. That the value is kept, in State.returned with the access's context and offset, is the model's choice
(log 9, log 6). -/
def Obligations.BusReadReturnsTheTableValue : Prop :=
  ∀ (s : State) (ctx : Nat) (off : Offset) (rest : List Event), off.toNat % 4 = 0 →
    s.pending = word ctx off .read :: rest →
    step s = .next { s with pending := rest, returned := s.returned ++ [⟨ctx, off, readValue s off⟩] }

/-- 20_memory.md R49: the window seen as bytes is little-endian. -/
def Obligations.WindowBytesAreLittleEndian : Prop :=
  ∀ (s : State) (k i : Nat), k < 64 → i < 4 →
    s.windowByte (BitVec.ofNat 8 (4 * k + i)) = (s.busRead (BitVec.ofNat 8 (4 * k))).extractLsb' (8 * i) 8 ∧
    s.busRead (BitVec.ofNat 8 (4 * k)) =
      (s.windowByte (BitVec.ofNat 8 (4 * k + 3)) ++ (s.windowByte (BitVec.ofNat 8 (4 * k + 2)) ++
        (s.windowByte (BitVec.ofNat 8 (4 * k + 1)) ++ s.windowByte (BitVec.ofNat 8 (4 * k)))) : BitVec (8 + (8 + (8 + 8))))

/-- 20_memory.md R48: a byte or halfword access, or a 32-bit access at an offset that is no multiple of 4, is
refused. That a narrow access is refused for its width wherever it lies is the model's choice (log 5). -/
def Obligations.NarrowOrMisalignedAccessIsRefused : Prop :=
  ∀ (s : State) (x : Access) (rest : List Event), s.pending = .access x :: rest →
    ((x.width = .byte ∨ x.width = .half) → step s = .refused .narrowAccess) ∧
    (x.width = .word → x.off.toNat % 4 ≠ 0 → step s = .refused .misalignedAccess)

/-- 20_memory.md R54: a host write to A, B, RAW, V, UM or CB0..CB3 stores the word there and changes no other
register of the window. -/
def Obligations.OperandWriteStoresTheWord : Prop :=
  ∀ (s : State) (ctx : Nat) (x : Reg) (w : Word) (rest : List Event), x ∈ storable →
    s.pending = word ctx x.offset (.write w) :: rest →
    ∃ t, step s = .next t ∧ t.busRead x.offset = w ∧
      (∀ off : Offset, off ≠ x.offset → t.busRead off = s.busRead off) ∧
      t.pending = rest ∧ t.returned = s.returned ∧ t.powerLosses = s.powerLosses

/-- 10_state.md R36: a host write to a read-only register or a reserved offset changes no state, and a reserved
offset reads 0. -/
def Obligations.ReadOnlyAndReservedWritesAreIgnored : Prop :=
  (∀ (s : State) (ctx : Nat) (off : Offset) (w : Word) (rest : List Event),
    ((∃ x ∈ readOnly, off = x.offset) ∨ (0x6C ≤ off.toNat ∧ off.toNat % 4 = 0)) →
    s.pending = word ctx off (.write w) :: rest → step s = .next { s with pending := rest }) ∧
  ∀ (s : State) (off : Offset), 0x6C ≤ off.toNat → s.busRead off = 0#32

/-- 10_state.md R20: a CFG write with an illegal RES sets ERR to ECFG and changes nothing else; a legal one
replaces RES, CSEL and CCLAMP (bits 4..0, 8 and 9), drops the reserved bits, sets ERR to OK, and changes nothing
else. -/
def Obligations.CfgWriteIsValidatedAsAWhole : Prop :=
  ∀ (s : State) (ctx : Nat) (w : Word) (rest : List Event), s.pending = word ctx 0x00#8 (.write w) :: rest →
    (w.toNat % 32 ∉ [6, 8, 10, 12, 14, 16] → step s = .next { withErr s 1#4 with pending := rest }) ∧
    (w.toNat % 32 ∈ [6, 8, 10, 12, 14, 16] →
      step s = .next { s with pending := rest, regs := { s.regs with
        res := BitVec.ofNat 5 (w.toNat % 32), csel := w.getLsbD 8, cclamp := w.getLsbD 9, err := 0#4 } } ∧
      ∃ t, step s = .next t ∧ t.busRead 0x00#8 = BitVec.ofNat 32 (w.toNat % 32 + 256 * (w.toNat / 256 % 4)) ∧
        t.busRead 0x3C#8 = 1#32 <<< (w.toNat % 32))

/-- 10_state.md R26: a host write to STATUS clears OV if w[8] = 1 and ignores every other bit of w. -/
def Obligations.StatusWriteClearsOvAlone : Prop :=
  ∀ (s : State) (ctx : Nat) (w : Word) (rest : List Event), s.pending = word ctx 0x04#8 (.write w) :: rest →
    step s = .next { s with pending := rest, regs := { s.regs with ov := s.regs.ov && !w.getLsbD 8 } }

/-- 20_memory.md R46: the window is the 256 bytes from P_BASE, a multiple of 256; an address outside it selects
no offset (the model's reading, log 4). -/
def Obligations.WindowIs256BytesFromItsBase : Prop :=
  256 ∣ Config.pBase ∧
  (∀ off : Offset, windowOffset? Config.pBase (Config.pBase + off.toNat) = some off) ∧
  ∀ addr : Nat, addr < Config.pBase ∨ Config.pBase + 256 ≤ addr → windowOffset? Config.pBase addr = none

/-- Resting on 20_memory.md R50 and R55 (an access completes before the next one): a step takes exactly one event,
the values read before it stay, and they change only by a read, which changes no register. The list of events, the
step without one and the list of values read are the model's choice (log 1, log 2, log 9). -/
def Obligations.StepTakesOneEvent : Prop :=
  ∀ s t : State, step s = .next t →
    t.pending = s.pending.tail ∧ t.returned.take s.returned.length = s.returned ∧
    (t.returned = s.returned ∨ ∃ ctx off rest, s.pending = word ctx off .read :: rest ∧ t.regs = s.regs)

/-- The model's choice (log 2), resting on 60_exceptions.md R147 and R157: with no event FXDC holds its state. -/
def Obligations.NoEventHoldsTheState : Prop :=
  ∀ s : State, (s.pending = [] → step s = .next s) ∧ (step s = .next s → s.pending = [])

/-- 20_memory.md R58: FXDC has no locking and does not tell contexts apart: with the contexts renamed, each step
is the same but for the names (the tags are the model's form, log 6). For a step that takes a power loss this rests on
the model's draw of its values, by the count of power losses alone (log 7). -/
def Obligations.ContextsAreNotToldApart : Prop :=
  ∀ (f : Nat → Nat) (s : State),
    (∀ t, step s = .next t → step (retag f s) = .next (retag f t)) ∧
    (∀ r, step s = .refused r → step (retag f s) = .refused r)

/-- 30_encoding.md R71: a word decodes to a row's command iff (w AND mask) = match; FXMUL's row gives the shift
w[13:8]; and no two rows select one word. -/
def Obligations.DecodeIsTheOpcodeMap : Prop :=
  (∀ (w : Word) (row : Instr × Word × Word), row ∈ opcodeRows →
    (decode w = .ok row.1 ↔ w &&& row.2.2 = row.2.1)) ∧
  (∀ (w : Word) (sh : Nat), decode w = .ok (.fxmul sh) ↔
    w &&& 0xFFFFC0FF#32 = 0x00000001#32 ∧ sh = ((w >>> 8) &&& 0x3F#32).toNat) ∧
  (∀ (w : Word) (r q : Instr × Word × Word), r ∈ opcodeRows → q ∈ opcodeRows →
    w &&& r.2.2 = r.2.1 → w &&& q.2.2 = q.2.1 → r = q) ∧
  ∀ (w : Word) (row : Instr × Word × Word), row ∈ opcodeRows → w &&& row.2.2 = row.2.1 →
    w &&& 0xFFFFC0FF#32 ≠ 0x00000001#32

/-- 30_encoding.md R67, R69, R71, R74: decode of encode is the command, for every command and every shift the
encoding admits. -/
def Obligations.DecodeOfEncodeIsTheCommand : Prop :=
  ∀ i : Instr, i.wf = true → decode (encode i) = .ok i

/-- 30_encoding.md R70, R71: a legal word has one meaning and is that command's only word. -/
def Obligations.EncodeOfDecodeIsTheWord : Prop :=
  ∀ (w : Word) (i : Instr), decode w = .ok i → i.wf = true ∧ encode i = w

/-- 30_encoding.md R67, R71 (the legal words) and R72 (the illegal ones): words written out from the encodings. A sanity
check. -/
def Obligations.WrittenOutWordsDecode : Prop :=
  decode 0x00001001#32 = .ok (.fxmul 16) ∧ decode 0x00003F01#32 = .ok (.fxmul 63) ∧
  decode 0x00000002#32 = .ok .scale ∧ decode 0x00000003#32 = .ok .poly ∧ decode 0x00000005#32 = .ok .tomm ∧
  decode 0x00000007#32 = .ok .readmm ∧ decode 0x00000008#32 = .ok .clrst ∧
  decode 0x00004001#32 = .error .reservedBits ∧ decode 0x00000102#32 = .error .shiftNotAllowed ∧
  decode 0x000000FF#32 = .error .reservedOpcode

/-- 10_state.md R27, 30_encoding.md R66: a write of a legal command word to CMD is that command, run on the state
without the event; the access takes nothing else. -/
def Obligations.StepRunsTheDecodedCommand : Prop :=
  ∀ (s : State) (ctx : Nat) (w : Word) (i : Instr) (rest : List Event), decode w = .ok i →
    s.pending = word ctx 0x08#8 (.write w) :: rest → step s = exec i { s with pending := rest }

/-- 30_encoding.md R72: a CMD word is illegal exactly when RSV ≠ 0, OP ≥ 0x09, or SH ≠ 0 outside FXMUL; it sets
ERR to EILL (4) and changes no other state. -/
def Obligations.IllegalWordsRaiseEillAlone : Prop :=
  ∀ (s : State) (ctx : Nat) (w : Word) (rest : List Event), s.pending = word ctx 0x08#8 (.write w) :: rest →
    (IllegalWord w ↔ ∀ i, decode w ≠ .ok i) ∧
    (IllegalWord w → step s = .next { withErr s 4#4 with pending := rest })

/-- 40_fixed_point.md R86: FXMUL sh writes the 64-bit product to PHI and PLO, its shifted low 32 bits to R, sets
OV when they do not hold it, sets ERR to OK, and changes nothing else. Its word is 0x01 with SH in bits 13..8; with
RSV ≠ 0 the word is illegal and raises EILL alone. -/
def Obligations.FxmulResult : Prop :=
  (∀ (s : State) (sh : Nat), sh < 64 →
    encode (.fxmul sh) = BitVec.ofNat 32 (1 + 256 * sh) ∧
    exec (.fxmul sh) s = .next { s with regs := { s.regs with
      plo := (prod64 s.regs.a s.regs.b).extractLsb' 0 32
      phi := (prod64 s.regs.a s.regs.b).extractLsb' 32 32
      r := low (shifted s.regs.a s.regs.b sh)
      ov := s.regs.ov || overflows (shifted s.regs.a s.regs.b sh)
      err := 0#4 } }) ∧
  ∀ (s : State) (ctx : Nat) (w : Word) (rest : List Event), w &&& 0xFF#32 = 0x01#32 → w >>> 14 ≠ 0#32 →
    s.pending = word ctx 0x08#8 (.write w) :: rest → step s = .next { withErr s 4#4 with pending := rest }

/-- 40_fixed_point.md R87 items 1 and 2: {PHI, PLO} is the exact signed product. -/
def Obligations.FxmulProductIsExact : Prop :=
  ∀ (s : State) (sh : Nat), ∃ t, exec (.fxmul sh) s = .next t ∧
    (t.regs.phi ++ t.regs.plo : BitVec (32 + 32)).toInt = s.regs.a.toInt * s.regs.b.toInt ∧
    |s.regs.a.toInt * s.regs.b.toInt| ≤ 2 ^ 62

/-- 40_fixed_point.md R87 items 3, 4 and 7: while the shifted product fits, R is the product divided by 2^sh and
rounded toward minus infinity; otherwise OV is 1. -/
def Obligations.FxmulRoundsTowardMinusInfinity : Prop :=
  ∀ (s : State) (sh : Nat), sh < 64 → ∃ t, exec (.fxmul sh) s = .next t ∧
    ((t.regs.r.toInt * 2 ^ sh ≤ s.regs.a.toInt * s.regs.b.toInt ∧
      s.regs.a.toInt * s.regs.b.toInt < (t.regs.r.toInt + 1) * 2 ^ sh) ∨ t.regs.ov = true)

/-- 40_fixed_point.md R87 item 5: swapping A and B leaves every output register and OV the same. -/
def Obligations.FxmulCommutes : Prop :=
  ∀ (s : State) (sh : Nat), ∃ t, exec (.fxmul sh) s = .next t ∧
    exec (.fxmul sh) { s with regs := { s.regs with a := s.regs.b, b := s.regs.a } } =
      .next { t with regs := { t.regs with a := t.regs.b, b := t.regs.a } }

/-- 40_fixed_point.md R87 item 6 and R88 (last row): FXMUL 0 leaves R = PLO, FXMUL 32 leaves R = PHI, and for
FXMUL 0 the overflow means that the product needs more than 32 signed bits. -/
def Obligations.FxmulShiftZeroAndThirtyTwo : Prop :=
  ∀ s : State, (∃ t, exec (.fxmul 0) s = .next t ∧ t.regs.r = t.regs.plo ∧
      (s.regs.ov = false → (t.regs.ov = true ↔ t.regs.plo.signExtend 64 ≠ t.regs.phi ++ t.regs.plo))) ∧
    ∃ t, exec (.fxmul 32) s = .next t ∧ t.regs.r = t.regs.phi ∧ t.regs.ov = s.regs.ov

/-- 41_voltage_scaling.md R96: SCALE raises ENOCFG while no resolution is configured, ERANGE when the sample is
not below 2^RES, and otherwise writes VPIN, V, OV and ERR, and nothing else. Its word is 2. -/
def Obligations.ScaleResult : Prop :=
  ∀ s : State, encode .scale = 0x00000002#32 ∧
    (¬Configured s → exec .scale s = .next (withErr s 2#4)) ∧
    (Configured s → ¬SampleInRange s → exec .scale s = .next (withErr s 3#4)) ∧
    (Configured s → SampleInRange s → exec .scale s = .next { s with regs := { s.regs with
      vpin := pin s, v := low (sensor s), ov := s.regs.ov || overflows (sensor s), err := 0#4 } })

/-- 41_voltage_scaling.md R99 items 1, 2 and 4: VPIN lies between 0 and P_VREF, is P_VREF at the largest code and
0 at code 0; OV is set exactly when floor(VPIN · P_DIVR / 2^16) exceeds 2^31 − 1. -/
def Obligations.ScaleStaysBetweenZeroAndVref : Prop :=
  ∀ s : State, Configured s → SampleInRange s → ∃ t, exec .scale s = .next t ∧
    s.regs.raw.toNat * s.vref.word.toNat < 2 ^ 47 ∧
    0 ≤ t.regs.vpin.toInt ∧ t.regs.vpin.toInt ≤ s.vref.word.toInt ∧
    (s.regs.raw.toNat = 2 ^ s.regs.res.toNat - 1 → t.regs.vpin = s.vref.word) ∧
    (s.regs.raw = 0#32 → t.regs.vpin = 0#32) ∧
    (t.regs.ov = true ↔ s.regs.ov = true ∨ 2147483647 < t.regs.vpin.toInt * s.divr.word.toInt / 65536)

/-- 41_voltage_scaling.md R99 item 3, corrected by R96 (log 14): VPIN = 0 exactly when RAW = 0 holds when P_VREF
is at least ADCMAX − 1, and fails for some legal P_VREF below it. -/
def Obligations.ScaleZeroReadingNeedsLargeVref : Prop :=
  (∀ s : State, Configured s → SampleInRange s → 2 ^ s.regs.res.toNat - 1 ≤ s.vref.word.toNat →
    ∃ t, exec .scale s = .next t ∧ (t.regs.vpin = 0#32 ↔ s.regs.raw = 0#32)) ∧
  ∃ s t : State, Configured s ∧ SampleInRange s ∧ exec .scale s = .next t ∧ t.regs.vpin = 0#32 ∧ s.regs.raw ≠ 0#32

/-- 41_voltage_scaling.md R100: for one configuration and samples s ≤ s' < ADCMAX, VPIN(s) ≤ VPIN(s'), and
V(s) ≤ V(s') if neither command sets OV. -/
def Obligations.ScaleIsMonotone : Prop :=
  ∀ (s : State) (raw' : Word), Configured s → s.regs.raw.toNat ≤ raw'.toNat →
    raw'.toNat < 2 ^ s.regs.res.toNat →
    ∃ t t', exec .scale s = .next t ∧ exec .scale { s with regs := { s.regs with raw := raw' } } = .next t' ∧
      t.regs.vpin.toInt ≤ t'.regs.vpin.toInt ∧
      (overflows (sensor s) = false → overflows (sensor { s with regs := { s.regs with raw := raw' } }) = false →
        t.regs.v.toInt ≤ t'.regs.v.toInt)

/-- 42_response_curve.md R106: POLY's result for the default bank (CSEL = 0, always clamped) and the substitute
bank (CSEL = 1, clamped as CCLAMP says), in every state, configured or not. Its word is 3. -/
def Obligations.PolyResult : Prop :=
  ∀ s : State, encode .poly = 0x00000003#32 ∧
    (s.regs.csel = false → exec .poly s = .next
      (afterPoly s true 0xFFFF14CA#32 0x0001CCD3#32 0xFFFFBEAB#32 0x00000439#32)) ∧
    (s.regs.csel = true → exec .poly s = .next
      (afterPoly s s.regs.cclamp s.regs.cb0 s.regs.cb1 s.regs.cb2 s.regs.cb3))

/-- 42_response_curve.md R109: UMR is floor(FMM · 1000 / 2^16), and its size is below 2^25. -/
def Obligations.PolyRescaleIsAFloor : Prop :=
  ∀ s : State, ∃ t, exec .poly s = .next t ∧
    t.regs.umr.toInt * 65536 ≤ t.regs.fmm.toInt * 1000 ∧ t.regs.fmm.toInt * 1000 < (t.regs.umr.toInt + 1) * 65536 ∧
    |t.regs.umr.toInt| < 2 ^ 25

/-- 42_response_curve.md R111: whenever POLY applies the clamp, 0 ≤ s32(UM) ≤ 10000, for every V, every
coefficient set, and whether or not OV is set. -/
def Obligations.PolyClampedRange : Prop :=
  ∀ s : State, (s.regs.csel = false ∨ s.regs.cclamp = true) →
    ∃ t, exec .poly s = .next t ∧ 0 ≤ t.regs.um.toInt ∧ t.regs.um.toInt ≤ 10000

/-- 42_response_curve.md R112: the default curve reads no substitute coefficient, and no bank is written; the
ADC side of the configuration does not matter to POLY either (R106). -/
def Obligations.DefaultCurveIgnoresSubstituteBank : Prop :=
  ∀ (s : State) (c0 c1 c2 c3 raw : Word) (res : BitVec 5), s.regs.csel = false →
    ∃ t, exec .poly s = .next t ∧
      t.regs.cb0 = s.regs.cb0 ∧ t.regs.cb1 = s.regs.cb1 ∧ t.regs.cb2 = s.regs.cb2 ∧ t.regs.cb3 = s.regs.cb3 ∧
      exec .poly { s with regs := { s.regs with cb0 := c0, cb1 := c1, cb2 := c2, cb3 := c3, raw := raw, res := res } } =
        .next { t with regs := { t.regs with cb0 := c0, cb1 := c1, cb2 := c2, cb3 := c3, raw := raw, res := res } }

/-- 42_response_curve.md R114: with the default coefficients and V = 0, POLY gives FMM = DB0, u = −919, UM = 0
and CLO = 1. -/
def Obligations.PolyAtZeroVoltage : Prop :=
  ∀ s : State, s.regs.csel = false → s.regs.v = 0#32 →
    ∃ t, exec .poly s = .next t ∧ t.regs.fmm.toInt = -60214 ∧ t.regs.umr.toInt = -919 ∧ t.regs.um = 0#32 ∧
      t.regs.clo = true ∧ t.regs.chi = false ∧ t.regs.ov = s.regs.ov

/-- 43_clamp_convert.md R121: CLAMP saturates UM to 0..10000, writes CLO and CHI, sets ERR to OK, and changes
nothing else. Its word is 4. -/
def Obligations.ClampResult : Prop :=
  ∀ s : State, encode .clamp = 0x00000004#32 ∧
    exec .clamp s = .next { s with regs := { s.regs with
      um := saturated s.regs.um, clo := s.regs.um.slt 0#32, chi := (10000#32).slt s.regs.um, err := 0#4 } }

/-- 43_clamp_convert.md R122: a second CLAMP leaves UM unchanged and writes CLO = CHI = 0. -/
def Obligations.ClampIsIdempotent : Prop :=
  ∀ s : State, ∃ t, exec .clamp s = .next t ∧
    exec .clamp t = .next { t with regs := { t.regs with clo := false, chi := false } }

/-- 43_clamp_convert.md R126: TOMM writes UM divided by 1000, truncated toward zero, to MM, sets ERR to OK, and
changes nothing else. Its word is 5. -/
def Obligations.TommResult : Prop :=
  ∀ s : State, encode .tomm = 0x00000005#32 ∧
    exec .tomm s = .next { s with regs := { s.regs with mm := s.regs.um.sdiv 1000#32, err := 0#4 } }

/-- 43_clamp_convert.md R127: the size of MM, its range after a clamp, its rounding toward zero on both sides. -/
def Obligations.TommRoundsTowardZero : Prop :=
  ∀ s : State, ∃ t, exec .tomm s = .next t ∧
    |t.regs.mm.toInt| ≤ 2147483 ∧
    (0 ≤ s.regs.um.toInt → s.regs.um.toInt ≤ 10000 → 0 ≤ t.regs.mm.toInt ∧ t.regs.mm.toInt ≤ 10) ∧
    (0 ≤ s.regs.um.toInt →
      t.regs.mm.toInt * 1000 ≤ s.regs.um.toInt ∧ s.regs.um.toInt < (t.regs.mm.toInt + 1) * 1000) ∧
    (s.regs.um.toInt < 0 →
      s.regs.um.toInt ≤ t.regs.mm.toInt * 1000 ∧ (t.regs.mm.toInt - 1) * 1000 < s.regs.um.toInt)

/-- 44_orchestration.md R132: READUM is SCALE followed by POLY when SCALE completes, and SCALE alone when SCALE
raises an error. -/
def Obligations.ReadumIsScaleThenPoly : Prop :=
  ∀ s : State, encode .readum = 0x00000006#32 ∧
    (Configured s → SampleInRange s → ∃ t u, exec .scale s = .next t ∧ exec .poly t = .next u ∧
      exec .readum s = .next u) ∧
    (¬(Configured s ∧ SampleInRange s) → exec .readum s = exec .scale s)

/-- 44_orchestration.md R135: READMM is READUM followed by TOMM when READUM completes, and READUM alone when it
fails; MM = trunc(UM / 1000), UM is READUM's, and with the default curve 0 ≤ MM ≤ 10. -/
def Obligations.ReadmmIsReadumThenTomm : Prop :=
  ∀ s : State, encode .readmm = 0x00000007#32 ∧
    (Configured s → SampleInRange s → ∃ t u, exec .readum s = .next t ∧ exec .tomm t = .next u ∧
      exec .readmm s = .next u ∧ u.regs.um = t.regs.um ∧ u.regs.mm = u.regs.um.sdiv 1000#32 ∧
      (s.regs.csel = false → 0 ≤ u.regs.mm.toInt ∧ u.regs.mm.toInt ≤ 10)) ∧
    (¬(Configured s ∧ SampleInRange s) → exec .readmm s = exec .readum s)

/-- 60_exceptions.md R141, R142, R146: SCALE, READUM and READMM raise ENOCFG while unconfigured, whatever RAW
holds, else ERANGE on a sample out of range, and an error changes ERR alone. -/
def Obligations.ReadErrorsArePrecise : Prop :=
  ∀ (s : State) (i : Instr), canFail i = true →
    (¬Configured s → exec i s = .next (withErr s 2#4)) ∧
    (Configured s → ¬SampleInRange s → exec i s = .next (withErr s 3#4))

/-- 44_orchestration.md R137: NOP sets ERR to OK and changes nothing else. Its word is 0. A legal CFG write sets
ERR to OK, too, and touches no flag and no register but CFG. -/
def Obligations.NopResult : Prop :=
  (∀ s : State, encode .nop = 0x00000000#32 ∧ exec .nop s = .next (withErr s 0#4)) ∧
  ∀ (s : State) (ctx : Nat) (w : Word) (rest : List Event), s.pending = word ctx 0x00#8 (.write w) :: rest →
    w.toNat % 32 ∈ [6, 8, 10, 12, 14, 16] → ∃ t, step s = .next t ∧ t.regs =
      { s.regs with err := 0#4, res := t.regs.res, csel := t.regs.csel, cclamp := t.regs.cclamp }

/-- 44_orchestration.md R138: CLRST clears ERR, OV, CLO and CHI and changes nothing else: the host reads STATUS as
CFGV alone. Its word is 8. -/
def Obligations.ClrstResult : Prop :=
  ∀ s : State, encode .clrst = 0x00000008#32 ∧
    ∃ t, exec .clrst s = .next t ∧
      t = { s with regs := { s.regs with err := 0#4, ov := false, clo := false, chi := false } } ∧
      t.busRead 0x04#8 = s.busRead 0x04#8 &&& 0x00010000#32

/-- 10_state.md R40: the frame of every command: no byte of the window changes but those of STATUS and of the
registers the command writes; OV, CLO and CHI change only by the commands that write them; CFG, the parameters and
the environment stay. -/
def Obligations.CommandFrame : Prop :=
  ∀ (i : Instr) (s : State), ∃ t, exec i s = .next t ∧
    (∀ off : Offset, 4 * (off.toNat / 4) ≠ 4 → 4 * (off.toNat / 4) ∉ wordsWritten i →
      t.windowByte off = s.windowByte off) ∧
    (writesOv i = false → t.regs.ov = s.regs.ov) ∧
    (writesClampFlags i = false → t.regs.clo = s.regs.clo ∧ t.regs.chi = s.regs.chi) ∧
    t.regs.res = s.regs.res ∧ t.regs.csel = s.regs.csel ∧ t.regs.cclamp = s.regs.cclamp ∧
    t.vref = s.vref ∧ t.divr = s.divr ∧ t.pending = s.pending ∧ t.returned = s.returned ∧
    t.powerLosses = s.powerLosses

/-- 60_exceptions.md R143: every command ends in a next state, with ERR = OK unless it is SCALE, READUM or READMM
and its error condition holds. -/
def Obligations.CommandOutcomeCodes : Prop :=
  ∀ (i : Instr) (s : State), ∃ t, exec i s = .next t ∧
    (t.regs.err = 2#4 ↔ canFail i = true ∧ ¬Configured s) ∧
    (t.regs.err = 3#4 ↔ canFail i = true ∧ Configured s ∧ ¬SampleInRange s) ∧
    (t.regs.err = 0#4 ∨ t.regs.err = 2#4 ∨ t.regs.err = 3#4)

/-- 10_state.md R40 (the reads of each command), 95_test_vectors.md ("any parameters"): no command but SCALE, READUM
and READMM depends on P_VREF or P_DIVR. -/
def Obligations.OtherCommandsIgnoreTheParameters : Prop :=
  ∀ (i : Instr) (s : State) (p q : PosQ), canFail i = false →
    ∃ t, exec i s = .next t ∧ exec i { s with vref := p, divr := q } = .next { t with vref := p, divr := q }

/-- 10_state.md R23: OV is sticky: once set, only CLRST, a STATUS write with bit 8 set, reset or a power loss can
leave it clear. -/
def Obligations.OvIsSticky : Prop :=
  ∀ s t : State, step s = .next t → s.regs.ov = true → t.regs.ov = false →
    NextWrites s 0x08#8 0x00000008#32 ∨ (∃ w : Word, w.getLsbD 8 = true ∧ NextWrites s 0x04#8 w) ∨ NextIsPlatform s

/-- 10_state.md R24: CLO and CHI change only by POLY, CLAMP, READUM, READMM and CLRST, and by the platform. -/
def Obligations.ClampFlagsChangeByClampersAlone : Prop :=
  ∀ s t : State, step s = .next t → (t.regs.clo ≠ s.regs.clo ∨ t.regs.chi ≠ s.regs.chi) →
    (∃ w ∈ [0x00000003#32, 0x00000004#32, 0x00000006#32, 0x00000007#32, 0x00000008#32], NextWrites s 0x08#8 w) ∨
      NextIsPlatform s

/-- 10_state.md R22: a CMD write and a CFG write leave one of the codes 0..4, and no other host access changes
ERR. -/
def Obligations.ErrChangesByCmdAndCfgWritesAlone : Prop :=
  ∀ s t : State, step s = .next t →
    (∀ w, NextWrites s 0x08#8 w → t.regs.err.toNat ∈ [0, 2, 3, 4]) ∧
    (∀ w, NextWrites s 0x00#8 w → t.regs.err.toNat ∈ [0, 1]) ∧
    (t.regs.err ≠ s.regs.err → (∃ w, NextWrites s 0x08#8 w ∨ NextWrites s 0x00#8 w) ∨ NextIsPlatform s)

/-- 10_state.md R20 and R25: CFG changes only by a CFG write, and once configured FXDC stays configured until
reset (or a power loss). -/
def Obligations.ConfigurationLastsUntilReset : Prop :=
  ∀ s t : State, step s = .next t → ¬NextIsPlatform s →
    (Configured s → Configured t) ∧
    ((∀ w, ¬NextWrites s 0x00#8 w) →
      t.regs.res = s.regs.res ∧ t.regs.csel = s.regs.csel ∧ t.regs.cclamp = s.regs.cclamp)

/-- 10_state.md R22, R24, R25, 70_reset_and_hazards.md R174: what holds of every state reachable from reset holds
at reset. That no power loss is pending there rests on the model's choice of an empty list of events (log 20, log 7). -/
def Obligations.InvariantHoldsAfterReset : Prop := State.reset.Inv

/-- 10_state.md R22, R24, R25, 70_reset_and_hazards.md R174: every step keeps it: CFG.RES is 0 or legal, CLO and
CHI are never both 1, ERR is a code 0..4, as long as no power loss is coming (log 7). -/
def Obligations.StepKeepsTheInvariant : Prop :=
  ∀ s t : State, s.Inv → step s = .next t → t.Inv

/-- 70_reset_and_hazards.md R174, 10_state.md R27: a run of accesses the spec gives a meaning ends after as many
steps as it has accesses, with none in flight; nothing is refused on the way. The queue is the model's form
(log 1), and the resets and power losses it may hold, of which R174 does not speak, are log 8 and log 7. -/
def Obligations.LegalRunsComplete : Prop :=
  ∀ s : State, (∀ e ∈ s.pending, e.legal = true) →
    ∃ t : State, Host.Core.run Sys2Proof.core s.pending.length s = .next t ∧ t.pending = []

/-- 20_memory.md R51: reads have no side effects: a run leaves the registers that the same run without its reads
leaves. The queue is the model's form (log 1), and so is the list of values that counts the reads (log 9). For a run with
platform events the claim rests on the model's choices: a reset is an event that leaves the queue (log 8), and the values
after a power loss are drawn by the count of power losses alone, so that both runs draw the same (log 7). -/
def Obligations.ReadsDoNotAffectARun : Prop :=
  ∀ s : State, (∀ e ∈ s.pending, e.legal = true) →
    ∃ t u : State, Host.Core.run Sys2Proof.core s.pending.length s = .next t ∧
      Host.Core.run Sys2Proof.core (s.pending.filter fun e => !e.isRead).length
        { s with pending := s.pending.filter fun e => !e.isRead } = .next u ∧
      t.regs = u.regs ∧ u.returned = s.returned ∧
      t.returned.length = s.returned.length + (s.pending.filter Event.isRead).length

/-- 30_encoding.md R74 and R76: the assembler reads FXMUL with every decimal shift, and the pseudo-instructions. -/
def Obligations.AssemblerReadsShiftsAndPseudos : Prop :=
  (∀ n : Nat, n < 64 → assembleWord? ("FXMUL ".toList ++ (toString n).toList) = some (BitVec.ofNat 32 (1 + 256 * n))) ∧
  assembleWord? "FXMUL 64".toList = none ∧
  assembleWord? "FXMUL".toList = some 0x00001001#32 ∧ assembleWord? "QMUL".toList = some 0x00001001#32 ∧
  assembleWord? "IMUL".toList = some 0x00000001#32 ∧ assembleWord? "fxmul 0x20".toList = some 0x00002001#32

/-- 60_exceptions.md R145: a driver that runs READUM with the default curve returns the signed value of UM, which is in
0..10000 (42_response_curve.md R111, 44_orchestration.md R131), and reports ENOCFG and ERANGE as outcomes without a document code; that this report carries FXDC's code is the model's
reading (log 19). -/
def Obligations.DriverReadsTheMeasurement : Prop :=
  ∀ s : State, s.regs.csel = false → ∃ t, exec .readum s = .next t ∧
    (Configured s → SampleInRange s → driverRead t.regs true (t.busRead 0x34#8) = .measurement t.regs.um.toInt ∧
      0 ≤ t.regs.um.toInt ∧ t.regs.um.toInt ≤ 10000) ∧
    (¬Configured s → driverRead t.regs true (t.busRead 0x34#8) = .noCode 2#4) ∧
    (Configured s → ¬SampleInRange s → driverRead t.regs true (t.busRead 0x34#8) = .noCode 3#4)

/-- 70_reset_and_hazards.md R174: the start states of runs. The reset state is one, with any parameters; a run of legal
accesses from one ends in one, with no access in flight; and whatever is reachable has the facts that the rules give
it. The run's queue and the reading of "reachable" are log 1 and log 21. -/
def Obligations.StartStatesAreTheReachableOnes : Prop :=
  (∀ p q : PosQ, (State.resetWith p q).Reachable) ∧
  (∀ (s : State) (xs : List Access), s.Reachable → (∀ x ∈ xs, x.legal = true) →
    ∃ t, s.RunsTo xs t ∧ t.Reachable ∧ t.pending = []) ∧
  ∀ s : State, s.Reachable → ReachableFacts s
end

