-- ==== Sys2Proof/Laws/Arith.lean ====
section
/-! SUPPORT. The arithmetic primitives: when narrowing is exact, that the shift is a floor division, bounds, and
that the exact integer product is the 64-bit product of the spec (00_scope.md R14, 40_fixed_point.md R87). -/

namespace Sys2Proof.Machine

theorem s32_bounds (w : Word) : -2147483648 ≤ s32 w ∧ s32 w ≤ 2147483647 := by
  have h := BitVec.toInt_lt (x := w)
  have h' := BitVec.le_toInt w
  simp only [s32]
  omega

theorem fits32_iff (q : Int) : fits32 q = true ↔ -2147483648 ≤ q ∧ q ≤ 2147483647 := by
  simp [fits32]

/-- Narrowing is exact on a value that fits (00_scope.md R13). -/
theorem s32_wrap32_of_fits {q : Int} (h : -2147483648 ≤ q ∧ q ≤ 2147483647) : s32 (wrap32 q) = q := by
  simp only [s32, wrap32, BitVec.toInt_ofInt, Int.bmod_def]
  omega

@[simp] theorem wrap32_s32 (w : Word) : wrap32 (s32 w) = w := by simp [wrap32, s32]

@[simp] theorem narrow_word (q : Int) : (narrow q).word = wrap32 q := rfl
@[simp] theorem narrow_ov (q : Int) : (narrow q).ov = !fits32 q := rfl
@[simp] theorem fxmul_word (x y : Int) (n : Nat) : (fxmul x y n).word = wrap32 (asr (x * y) n) := rfl
@[simp] theorem fxmul_ov (x y : Int) (n : Nat) : (fxmul x y n).ov = !fits32 (asr (x * y) n) := rfl
@[simp] theorem fx16_word (x y : Int) : (fx16 x y).word = wrap32 (asr (x * y) 16) := rfl
@[simp] theorem fx16_ov (x y : Int) : (fx16 x y).ov = !fits32 (asr (x * y) 16) := rfl

/-- `q >>a n` is floor(q / 2^n) (00_scope.md R13). -/
theorem asr_eq_div (q : Int) (n : Nat) : asr q n = q / 2 ^ n := by
  simp [asr, Int.shiftRight_eq_div_pow]

theorem asr_mono {p q : Int} (h : p ≤ q) (n : Nat) : asr p n ≤ asr q n := by
  rw [asr_eq_div, asr_eq_div]
  exact Int.ediv_le_ediv (by positivity) h

/-- The floor law of the shift (40_fixed_point.md R87 item 3). -/
theorem asr_floor (q : Int) (n : Nat) : asr q n * 2 ^ n ≤ q ∧ q < (asr q n + 1) * 2 ^ n := by
  rw [asr_eq_div]
  have hpos : (0 : Int) < 2 ^ n := by positivity
  exact ⟨Int.ediv_mul_le q hpos.ne', Int.lt_ediv_add_one_mul_self q hpos⟩

/-- "|p| <= 2^62, always fits signed 64" (00_scope.md R14). -/
theorem product_bounds (x y : Word) :
    -4611686018427387904 ≤ s32 x * s32 y ∧ s32 x * s32 y ≤ 4611686018427387904 := by
  have hx := s32_bounds x
  have hy := s32_bounds y
  constructor <;> nlinarith

theorem toInt_ofInt64 {p : Int} (h : -9223372036854775808 ≤ p ∧ p ≤ 9223372036854775807) :
    (BitVec.ofInt 64 p).toInt = p := by
  simp only [BitVec.toInt_ofInt, Int.bmod_def]
  omega

/-- The 64-bit pattern of the exact product is the product of the sign-extended operands (00_scope.md R14). -/
theorem ofInt64_product (x y : Word) :
    BitVec.ofInt 64 (s32 x * s32 y) = x.signExtend 64 * y.signExtend 64 := by
  have hx : x.signExtend 64 = BitVec.ofInt 64 (s32 x) := rfl
  have hy : y.signExtend 64 = BitVec.ofInt 64 (s32 y) := rfl
  rw [hx, hy, BitVec.ofInt_mul]

/-- The low 32 bits of a 64-bit word are its signed value narrowed (00_scope.md R13). -/
theorem setWidth_eq_wrap32 (q : BitVec 64) : q.setWidth 32 = wrap32 q.toInt := by
  apply BitVec.eq_of_toNat_eq
  simp only [BitVec.toNat_setWidth, wrap32, BitVec.toNat_ofInt, BitVec.toInt_eq_toNat_cond]
  have := q.isLt
  split <;> omega

theorem toInt_signExtend64 (x : Word) : (x.signExtend 64).toInt = s32 x := by
  simp [BitVec.toInt_signExtend_of_le]

/-- The spec's 64-bit arithmetic shift of the product is the model's exact one (00_scope.md R14). -/
theorem toInt_shifted_product (x y : Word) (n : Nat) :
    ((x.signExtend 64 * y.signExtend 64).sshiftRight n).toInt = asr (s32 x * s32 y) n := by
  have h := product_bounds x y
  rw [BitVec.toInt_sshiftRight, ← ofInt64_product, toInt_ofInt64 (by omega)]
  rfl

theorem wrap32_shifted_product (x y : Word) (n : Nat) :
    wrap32 (asr (s32 x * s32 y) n) = ((x.signExtend 64 * y.signExtend 64).sshiftRight n).setWidth 32 := by
  rw [setWidth_eq_wrap32, toInt_shifted_product]

theorem not_fits32_eq (q : Int) : (!fits32 q) = decide (q < -2147483648 ∨ 2147483647 < q) := by
  rw [Bool.eq_iff_iff]
  simp [fits32]

theorem clampTo_bounds (u : Int) {lo hi : Int} (h : lo ≤ hi) : lo ≤ clampTo u lo hi ∧ clampTo u lo hi ≤ hi := by
  unfold clampTo
  split
  · omega
  · split <;> omega

theorem clampTo_of_mem {u lo hi : Int} (h : lo ≤ u ∧ u ≤ hi) : clampTo u lo hi = u := by
  unfold clampTo
  rw [if_neg (by omega), if_neg (by omega)]

/-- `trunc(u / 1000)` between its floor and its ceiling (43_clamp_convert.md R127). -/
theorem truncDiv_nonneg {u : Int} (h : 0 ≤ u) : truncDiv u 1000 = u / 1000 := by
  rw [truncDiv, Int.tdiv_eq_ediv_of_nonneg h]

theorem truncDiv_neg (u : Int) : truncDiv (-u) 1000 = -truncDiv u 1000 := Int.neg_tdiv u 1000

end Sys2Proof.Machine
end

