-- ==== Sys2Proof/Laws/Decode.lean ====
section
/-! SUPPORT. The fields of a command word as numbers (30_encoding.md R67). -/

namespace Sys2Proof

theorem opField_toNat (w : Word) : (opField w).toNat = w.toNat % 256 := by
  simp [opField, BitVec.extractLsb'_toNat]

theorem shField_toNat (w : Word) : (shField w).toNat = w.toNat / 256 % 64 := by
  simp [shField, BitVec.extractLsb'_toNat, Nat.shiftRight_eq_div_pow]

theorem rsvField_toNat (w : Word) : (rsvField w).toNat = w.toNat / 16384 := by
  have h := w.isLt
  simp only [rsvField, BitVec.extractLsb'_toNat, Nat.shiftRight_eq_div_pow]
  omega

/-- The word of a command as a number: OP + 256 · SH (30_encoding.md R74). -/
theorem encode_toNat (i : Instr) : (encode i).toNat = i.opcode.toNat + 256 * (i.shift % 64) := by
  have h := i.opcode.isLt
  have hor : (i.shift % 64) <<< 8 ||| i.opcode.toNat = (i.shift % 64) <<< 8 + i.opcode.toNat :=
    (Nat.shiftLeft_add_eq_or_of_lt h _).symm
  simp only [encode, BitVec.toNat_append, BitVec.toNat_ofNat, Nat.reducePow, Nat.zero_mod, Nat.zero_shiftLeft,
    Nat.zero_or]
  rw [hor, Nat.shiftLeft_eq]
  omega

end Sys2Proof
end

