-- ==== Sys2Proof/Laws/State.lean ====
section
/-! SUPPORT. One lemma per field and update of Regs and State, true by rfl, so that no later proof unfolds a record
update. -/

namespace Sys2Proof.Machine

section flags

@[simp] theorem Regs.setOvIf_res (g : Regs) (o : Bool) : (g.setOvIf o).res = g.res := rfl
@[simp] theorem Regs.setOvIf_csel (g : Regs) (o : Bool) : (g.setOvIf o).csel = g.csel := rfl
@[simp] theorem Regs.setOvIf_cclamp (g : Regs) (o : Bool) : (g.setOvIf o).cclamp = g.cclamp := rfl
@[simp] theorem Regs.setOvIf_err (g : Regs) (o : Bool) : (g.setOvIf o).err = g.err := rfl
@[simp] theorem Regs.setOvIf_ov (g : Regs) (o : Bool) : (g.setOvIf o).ov = (g.ov || o) := rfl
@[simp] theorem Regs.setOvIf_clo (g : Regs) (o : Bool) : (g.setOvIf o).clo = g.clo := rfl
@[simp] theorem Regs.setOvIf_chi (g : Regs) (o : Bool) : (g.setOvIf o).chi = g.chi := rfl
@[simp] theorem Regs.setOvIf_a (g : Regs) (o : Bool) : (g.setOvIf o).a = g.a := rfl
@[simp] theorem Regs.setOvIf_b (g : Regs) (o : Bool) : (g.setOvIf o).b = g.b := rfl
@[simp] theorem Regs.setOvIf_r (g : Regs) (o : Bool) : (g.setOvIf o).r = g.r := rfl
@[simp] theorem Regs.setOvIf_plo (g : Regs) (o : Bool) : (g.setOvIf o).plo = g.plo := rfl
@[simp] theorem Regs.setOvIf_phi (g : Regs) (o : Bool) : (g.setOvIf o).phi = g.phi := rfl
@[simp] theorem Regs.setOvIf_raw (g : Regs) (o : Bool) : (g.setOvIf o).raw = g.raw := rfl
@[simp] theorem Regs.setOvIf_vpin (g : Regs) (o : Bool) : (g.setOvIf o).vpin = g.vpin := rfl
@[simp] theorem Regs.setOvIf_v (g : Regs) (o : Bool) : (g.setOvIf o).v = g.v := rfl
@[simp] theorem Regs.setOvIf_fmm (g : Regs) (o : Bool) : (g.setOvIf o).fmm = g.fmm := rfl
@[simp] theorem Regs.setOvIf_umr (g : Regs) (o : Bool) : (g.setOvIf o).umr = g.umr := rfl
@[simp] theorem Regs.setOvIf_um (g : Regs) (o : Bool) : (g.setOvIf o).um = g.um := rfl
@[simp] theorem Regs.setOvIf_mm (g : Regs) (o : Bool) : (g.setOvIf o).mm = g.mm := rfl
@[simp] theorem Regs.setOvIf_cb0 (g : Regs) (o : Bool) : (g.setOvIf o).cb0 = g.cb0 := rfl
@[simp] theorem Regs.setOvIf_cb1 (g : Regs) (o : Bool) : (g.setOvIf o).cb1 = g.cb1 := rfl
@[simp] theorem Regs.setOvIf_cb2 (g : Regs) (o : Bool) : (g.setOvIf o).cb2 = g.cb2 := rfl
@[simp] theorem Regs.setOvIf_cb3 (g : Regs) (o : Bool) : (g.setOvIf o).cb3 = g.cb3 := rfl

@[simp] theorem Regs.writeClampFlags_res (g : Regs) (u : Int) : (g.writeClampFlags u).res = g.res := rfl
@[simp] theorem Regs.writeClampFlags_csel (g : Regs) (u : Int) : (g.writeClampFlags u).csel = g.csel := rfl
@[simp] theorem Regs.writeClampFlags_cclamp (g : Regs) (u : Int) : (g.writeClampFlags u).cclamp = g.cclamp := rfl
@[simp] theorem Regs.writeClampFlags_err (g : Regs) (u : Int) : (g.writeClampFlags u).err = g.err := rfl
@[simp] theorem Regs.writeClampFlags_ov (g : Regs) (u : Int) : (g.writeClampFlags u).ov = g.ov := rfl
@[simp] theorem Regs.writeClampFlags_clo (g : Regs) (u : Int) : (g.writeClampFlags u).clo = decide (u < 0) := rfl
@[simp] theorem Regs.writeClampFlags_chi (g : Regs) (u : Int) : (g.writeClampFlags u).chi = decide (u > maxUm) := rfl
@[simp] theorem Regs.writeClampFlags_a (g : Regs) (u : Int) : (g.writeClampFlags u).a = g.a := rfl
@[simp] theorem Regs.writeClampFlags_b (g : Regs) (u : Int) : (g.writeClampFlags u).b = g.b := rfl
@[simp] theorem Regs.writeClampFlags_r (g : Regs) (u : Int) : (g.writeClampFlags u).r = g.r := rfl
@[simp] theorem Regs.writeClampFlags_plo (g : Regs) (u : Int) : (g.writeClampFlags u).plo = g.plo := rfl
@[simp] theorem Regs.writeClampFlags_phi (g : Regs) (u : Int) : (g.writeClampFlags u).phi = g.phi := rfl
@[simp] theorem Regs.writeClampFlags_raw (g : Regs) (u : Int) : (g.writeClampFlags u).raw = g.raw := rfl
@[simp] theorem Regs.writeClampFlags_vpin (g : Regs) (u : Int) : (g.writeClampFlags u).vpin = g.vpin := rfl
@[simp] theorem Regs.writeClampFlags_v (g : Regs) (u : Int) : (g.writeClampFlags u).v = g.v := rfl
@[simp] theorem Regs.writeClampFlags_fmm (g : Regs) (u : Int) : (g.writeClampFlags u).fmm = g.fmm := rfl
@[simp] theorem Regs.writeClampFlags_umr (g : Regs) (u : Int) : (g.writeClampFlags u).umr = g.umr := rfl
@[simp] theorem Regs.writeClampFlags_um (g : Regs) (u : Int) : (g.writeClampFlags u).um = g.um := rfl
@[simp] theorem Regs.writeClampFlags_mm (g : Regs) (u : Int) : (g.writeClampFlags u).mm = g.mm := rfl
@[simp] theorem Regs.writeClampFlags_cb0 (g : Regs) (u : Int) : (g.writeClampFlags u).cb0 = g.cb0 := rfl
@[simp] theorem Regs.writeClampFlags_cb1 (g : Regs) (u : Int) : (g.writeClampFlags u).cb1 = g.cb1 := rfl
@[simp] theorem Regs.writeClampFlags_cb2 (g : Regs) (u : Int) : (g.writeClampFlags u).cb2 = g.cb2 := rfl
@[simp] theorem Regs.writeClampFlags_cb3 (g : Regs) (u : Int) : (g.writeClampFlags u).cb3 = g.cb3 := rfl

@[simp] theorem Regs.clearClampFlags_res (g : Regs) : (g.clearClampFlags).res = g.res := rfl
@[simp] theorem Regs.clearClampFlags_csel (g : Regs) : (g.clearClampFlags).csel = g.csel := rfl
@[simp] theorem Regs.clearClampFlags_cclamp (g : Regs) : (g.clearClampFlags).cclamp = g.cclamp := rfl
@[simp] theorem Regs.clearClampFlags_err (g : Regs) : (g.clearClampFlags).err = g.err := rfl
@[simp] theorem Regs.clearClampFlags_ov (g : Regs) : (g.clearClampFlags).ov = g.ov := rfl
@[simp] theorem Regs.clearClampFlags_clo (g : Regs) : (g.clearClampFlags).clo = false := rfl
@[simp] theorem Regs.clearClampFlags_chi (g : Regs) : (g.clearClampFlags).chi = false := rfl
@[simp] theorem Regs.clearClampFlags_a (g : Regs) : (g.clearClampFlags).a = g.a := rfl
@[simp] theorem Regs.clearClampFlags_b (g : Regs) : (g.clearClampFlags).b = g.b := rfl
@[simp] theorem Regs.clearClampFlags_r (g : Regs) : (g.clearClampFlags).r = g.r := rfl
@[simp] theorem Regs.clearClampFlags_plo (g : Regs) : (g.clearClampFlags).plo = g.plo := rfl
@[simp] theorem Regs.clearClampFlags_phi (g : Regs) : (g.clearClampFlags).phi = g.phi := rfl
@[simp] theorem Regs.clearClampFlags_raw (g : Regs) : (g.clearClampFlags).raw = g.raw := rfl
@[simp] theorem Regs.clearClampFlags_vpin (g : Regs) : (g.clearClampFlags).vpin = g.vpin := rfl
@[simp] theorem Regs.clearClampFlags_v (g : Regs) : (g.clearClampFlags).v = g.v := rfl
@[simp] theorem Regs.clearClampFlags_fmm (g : Regs) : (g.clearClampFlags).fmm = g.fmm := rfl
@[simp] theorem Regs.clearClampFlags_umr (g : Regs) : (g.clearClampFlags).umr = g.umr := rfl
@[simp] theorem Regs.clearClampFlags_um (g : Regs) : (g.clearClampFlags).um = g.um := rfl
@[simp] theorem Regs.clearClampFlags_mm (g : Regs) : (g.clearClampFlags).mm = g.mm := rfl
@[simp] theorem Regs.clearClampFlags_cb0 (g : Regs) : (g.clearClampFlags).cb0 = g.cb0 := rfl
@[simp] theorem Regs.clearClampFlags_cb1 (g : Regs) : (g.clearClampFlags).cb1 = g.cb1 := rfl
@[simp] theorem Regs.clearClampFlags_cb2 (g : Regs) : (g.clearClampFlags).cb2 = g.cb2 := rfl
@[simp] theorem Regs.clearClampFlags_cb3 (g : Regs) : (g.clearClampFlags).cb3 = g.cb3 := rfl

@[simp] theorem Regs.clearOv_res (g : Regs) : (g.clearOv).res = g.res := rfl
@[simp] theorem Regs.clearOv_csel (g : Regs) : (g.clearOv).csel = g.csel := rfl
@[simp] theorem Regs.clearOv_cclamp (g : Regs) : (g.clearOv).cclamp = g.cclamp := rfl
@[simp] theorem Regs.clearOv_err (g : Regs) : (g.clearOv).err = g.err := rfl
@[simp] theorem Regs.clearOv_ov (g : Regs) : (g.clearOv).ov = false := rfl
@[simp] theorem Regs.clearOv_clo (g : Regs) : (g.clearOv).clo = g.clo := rfl
@[simp] theorem Regs.clearOv_chi (g : Regs) : (g.clearOv).chi = g.chi := rfl
@[simp] theorem Regs.clearOv_a (g : Regs) : (g.clearOv).a = g.a := rfl
@[simp] theorem Regs.clearOv_b (g : Regs) : (g.clearOv).b = g.b := rfl
@[simp] theorem Regs.clearOv_r (g : Regs) : (g.clearOv).r = g.r := rfl
@[simp] theorem Regs.clearOv_plo (g : Regs) : (g.clearOv).plo = g.plo := rfl
@[simp] theorem Regs.clearOv_phi (g : Regs) : (g.clearOv).phi = g.phi := rfl
@[simp] theorem Regs.clearOv_raw (g : Regs) : (g.clearOv).raw = g.raw := rfl
@[simp] theorem Regs.clearOv_vpin (g : Regs) : (g.clearOv).vpin = g.vpin := rfl
@[simp] theorem Regs.clearOv_v (g : Regs) : (g.clearOv).v = g.v := rfl
@[simp] theorem Regs.clearOv_fmm (g : Regs) : (g.clearOv).fmm = g.fmm := rfl
@[simp] theorem Regs.clearOv_umr (g : Regs) : (g.clearOv).umr = g.umr := rfl
@[simp] theorem Regs.clearOv_um (g : Regs) : (g.clearOv).um = g.um := rfl
@[simp] theorem Regs.clearOv_mm (g : Regs) : (g.clearOv).mm = g.mm := rfl
@[simp] theorem Regs.clearOv_cb0 (g : Regs) : (g.clearOv).cb0 = g.cb0 := rfl
@[simp] theorem Regs.clearOv_cb1 (g : Regs) : (g.clearOv).cb1 = g.cb1 := rfl
@[simp] theorem Regs.clearOv_cb2 (g : Regs) : (g.clearOv).cb2 = g.cb2 := rfl
@[simp] theorem Regs.clearOv_cb3 (g : Regs) : (g.clearOv).cb3 = g.cb3 := rfl

end flags

section units

@[simp] theorem Regs.toMm_res (g : Regs) : (g.toMm).res = g.res := rfl
@[simp] theorem Regs.toMm_csel (g : Regs) : (g.toMm).csel = g.csel := rfl
@[simp] theorem Regs.toMm_cclamp (g : Regs) : (g.toMm).cclamp = g.cclamp := rfl
@[simp] theorem Regs.toMm_err (g : Regs) : (g.toMm).err = g.err := rfl
@[simp] theorem Regs.toMm_ov (g : Regs) : (g.toMm).ov = g.ov := rfl
@[simp] theorem Regs.toMm_clo (g : Regs) : (g.toMm).clo = g.clo := rfl
@[simp] theorem Regs.toMm_chi (g : Regs) : (g.toMm).chi = g.chi := rfl
@[simp] theorem Regs.toMm_a (g : Regs) : (g.toMm).a = g.a := rfl
@[simp] theorem Regs.toMm_b (g : Regs) : (g.toMm).b = g.b := rfl
@[simp] theorem Regs.toMm_r (g : Regs) : (g.toMm).r = g.r := rfl
@[simp] theorem Regs.toMm_plo (g : Regs) : (g.toMm).plo = g.plo := rfl
@[simp] theorem Regs.toMm_phi (g : Regs) : (g.toMm).phi = g.phi := rfl
@[simp] theorem Regs.toMm_raw (g : Regs) : (g.toMm).raw = g.raw := rfl
@[simp] theorem Regs.toMm_vpin (g : Regs) : (g.toMm).vpin = g.vpin := rfl
@[simp] theorem Regs.toMm_v (g : Regs) : (g.toMm).v = g.v := rfl
@[simp] theorem Regs.toMm_fmm (g : Regs) : (g.toMm).fmm = g.fmm := rfl
@[simp] theorem Regs.toMm_umr (g : Regs) : (g.toMm).umr = g.umr := rfl
@[simp] theorem Regs.toMm_um (g : Regs) : (g.toMm).um = g.um := rfl
@[simp] theorem Regs.toMm_mm (g : Regs) : (g.toMm).mm = wrap32 (truncDiv (s32 g.um) 1000) := rfl
@[simp] theorem Regs.toMm_cb0 (g : Regs) : (g.toMm).cb0 = g.cb0 := rfl
@[simp] theorem Regs.toMm_cb1 (g : Regs) : (g.toMm).cb1 = g.cb1 := rfl
@[simp] theorem Regs.toMm_cb2 (g : Regs) : (g.toMm).cb2 = g.cb2 := rfl
@[simp] theorem Regs.toMm_cb3 (g : Regs) : (g.toMm).cb3 = g.cb3 := rfl

@[simp] theorem Regs.saturate_res (g : Regs) : (g.saturate).res = g.res := rfl
@[simp] theorem Regs.saturate_csel (g : Regs) : (g.saturate).csel = g.csel := rfl
@[simp] theorem Regs.saturate_cclamp (g : Regs) : (g.saturate).cclamp = g.cclamp := rfl
@[simp] theorem Regs.saturate_err (g : Regs) : (g.saturate).err = g.err := rfl
@[simp] theorem Regs.saturate_ov (g : Regs) : (g.saturate).ov = g.ov := rfl
@[simp] theorem Regs.saturate_clo (g : Regs) : (g.saturate).clo = decide (s32 g.um < 0) := rfl
@[simp] theorem Regs.saturate_chi (g : Regs) : (g.saturate).chi = decide (s32 g.um > maxUm) := rfl
@[simp] theorem Regs.saturate_a (g : Regs) : (g.saturate).a = g.a := rfl
@[simp] theorem Regs.saturate_b (g : Regs) : (g.saturate).b = g.b := rfl
@[simp] theorem Regs.saturate_r (g : Regs) : (g.saturate).r = g.r := rfl
@[simp] theorem Regs.saturate_plo (g : Regs) : (g.saturate).plo = g.plo := rfl
@[simp] theorem Regs.saturate_phi (g : Regs) : (g.saturate).phi = g.phi := rfl
@[simp] theorem Regs.saturate_raw (g : Regs) : (g.saturate).raw = g.raw := rfl
@[simp] theorem Regs.saturate_vpin (g : Regs) : (g.saturate).vpin = g.vpin := rfl
@[simp] theorem Regs.saturate_v (g : Regs) : (g.saturate).v = g.v := rfl
@[simp] theorem Regs.saturate_fmm (g : Regs) : (g.saturate).fmm = g.fmm := rfl
@[simp] theorem Regs.saturate_umr (g : Regs) : (g.saturate).umr = g.umr := rfl
@[simp] theorem Regs.saturate_um (g : Regs) : (g.saturate).um = wrap32 (clampTo (s32 g.um) 0 maxUm) := rfl
@[simp] theorem Regs.saturate_mm (g : Regs) : (g.saturate).mm = g.mm := rfl
@[simp] theorem Regs.saturate_cb0 (g : Regs) : (g.saturate).cb0 = g.cb0 := rfl
@[simp] theorem Regs.saturate_cb1 (g : Regs) : (g.saturate).cb1 = g.cb1 := rfl
@[simp] theorem Regs.saturate_cb2 (g : Regs) : (g.saturate).cb2 = g.cb2 := rfl
@[simp] theorem Regs.saturate_cb3 (g : Regs) : (g.saturate).cb3 = g.cb3 := rfl

@[simp] theorem Regs.multiply_res (g : Regs) (n : Nat) : (g.multiply n).res = g.res := rfl
@[simp] theorem Regs.multiply_csel (g : Regs) (n : Nat) : (g.multiply n).csel = g.csel := rfl
@[simp] theorem Regs.multiply_cclamp (g : Regs) (n : Nat) : (g.multiply n).cclamp = g.cclamp := rfl
@[simp] theorem Regs.multiply_err (g : Regs) (n : Nat) : (g.multiply n).err = g.err := rfl
@[simp] theorem Regs.multiply_ov (g : Regs) (n : Nat) : (g.multiply n).ov = (g.ov || (fxmul (s32 g.a) (s32 g.b) n).ov) := rfl
@[simp] theorem Regs.multiply_clo (g : Regs) (n : Nat) : (g.multiply n).clo = g.clo := rfl
@[simp] theorem Regs.multiply_chi (g : Regs) (n : Nat) : (g.multiply n).chi = g.chi := rfl
@[simp] theorem Regs.multiply_a (g : Regs) (n : Nat) : (g.multiply n).a = g.a := rfl
@[simp] theorem Regs.multiply_b (g : Regs) (n : Nat) : (g.multiply n).b = g.b := rfl
@[simp] theorem Regs.multiply_r (g : Regs) (n : Nat) : (g.multiply n).r = (fxmul (s32 g.a) (s32 g.b) n).word := rfl
@[simp] theorem Regs.multiply_plo (g : Regs) (n : Nat) : (g.multiply n).plo = (BitVec.ofInt 64 (s32 g.a * s32 g.b)).extractLsb' 0 32 := rfl
@[simp] theorem Regs.multiply_phi (g : Regs) (n : Nat) : (g.multiply n).phi = (BitVec.ofInt 64 (s32 g.a * s32 g.b)).extractLsb' 32 32 := rfl
@[simp] theorem Regs.multiply_raw (g : Regs) (n : Nat) : (g.multiply n).raw = g.raw := rfl
@[simp] theorem Regs.multiply_vpin (g : Regs) (n : Nat) : (g.multiply n).vpin = g.vpin := rfl
@[simp] theorem Regs.multiply_v (g : Regs) (n : Nat) : (g.multiply n).v = g.v := rfl
@[simp] theorem Regs.multiply_fmm (g : Regs) (n : Nat) : (g.multiply n).fmm = g.fmm := rfl
@[simp] theorem Regs.multiply_umr (g : Regs) (n : Nat) : (g.multiply n).umr = g.umr := rfl
@[simp] theorem Regs.multiply_um (g : Regs) (n : Nat) : (g.multiply n).um = g.um := rfl
@[simp] theorem Regs.multiply_mm (g : Regs) (n : Nat) : (g.multiply n).mm = g.mm := rfl
@[simp] theorem Regs.multiply_cb0 (g : Regs) (n : Nat) : (g.multiply n).cb0 = g.cb0 := rfl
@[simp] theorem Regs.multiply_cb1 (g : Regs) (n : Nat) : (g.multiply n).cb1 = g.cb1 := rfl
@[simp] theorem Regs.multiply_cb2 (g : Regs) (n : Nat) : (g.multiply n).cb2 = g.cb2 := rfl
@[simp] theorem Regs.multiply_cb3 (g : Regs) (n : Nat) : (g.multiply n).cb3 = g.cb3 := rfl

@[simp] theorem Regs.writeDistance_res (g : Regs) (u : Int) : (g.writeDistance u).res = g.res := by
  unfold Regs.writeDistance; cases g.clampOn <;> rfl
@[simp] theorem Regs.writeDistance_csel (g : Regs) (u : Int) : (g.writeDistance u).csel = g.csel := by
  unfold Regs.writeDistance; cases g.clampOn <;> rfl
@[simp] theorem Regs.writeDistance_cclamp (g : Regs) (u : Int) : (g.writeDistance u).cclamp = g.cclamp := by
  unfold Regs.writeDistance; cases g.clampOn <;> rfl
@[simp] theorem Regs.writeDistance_err (g : Regs) (u : Int) : (g.writeDistance u).err = g.err := by
  unfold Regs.writeDistance; cases g.clampOn <;> rfl
@[simp] theorem Regs.writeDistance_ov (g : Regs) (u : Int) : (g.writeDistance u).ov = g.ov := by
  unfold Regs.writeDistance; cases g.clampOn <;> rfl
@[simp] theorem Regs.writeDistance_clo (g : Regs) (u : Int) : (g.writeDistance u).clo = (g.clampOn && decide (u < 0)) := by
  unfold Regs.writeDistance; cases g.clampOn <;> rfl
@[simp] theorem Regs.writeDistance_chi (g : Regs) (u : Int) : (g.writeDistance u).chi = (g.clampOn && decide (u > maxUm)) := by
  unfold Regs.writeDistance; cases g.clampOn <;> rfl
@[simp] theorem Regs.writeDistance_a (g : Regs) (u : Int) : (g.writeDistance u).a = g.a := by
  unfold Regs.writeDistance; cases g.clampOn <;> rfl
@[simp] theorem Regs.writeDistance_b (g : Regs) (u : Int) : (g.writeDistance u).b = g.b := by
  unfold Regs.writeDistance; cases g.clampOn <;> rfl
@[simp] theorem Regs.writeDistance_r (g : Regs) (u : Int) : (g.writeDistance u).r = g.r := by
  unfold Regs.writeDistance; cases g.clampOn <;> rfl
@[simp] theorem Regs.writeDistance_plo (g : Regs) (u : Int) : (g.writeDistance u).plo = g.plo := by
  unfold Regs.writeDistance; cases g.clampOn <;> rfl
@[simp] theorem Regs.writeDistance_phi (g : Regs) (u : Int) : (g.writeDistance u).phi = g.phi := by
  unfold Regs.writeDistance; cases g.clampOn <;> rfl
@[simp] theorem Regs.writeDistance_raw (g : Regs) (u : Int) : (g.writeDistance u).raw = g.raw := by
  unfold Regs.writeDistance; cases g.clampOn <;> rfl
@[simp] theorem Regs.writeDistance_vpin (g : Regs) (u : Int) : (g.writeDistance u).vpin = g.vpin := by
  unfold Regs.writeDistance; cases g.clampOn <;> rfl
@[simp] theorem Regs.writeDistance_v (g : Regs) (u : Int) : (g.writeDistance u).v = g.v := by
  unfold Regs.writeDistance; cases g.clampOn <;> rfl
@[simp] theorem Regs.writeDistance_fmm (g : Regs) (u : Int) : (g.writeDistance u).fmm = g.fmm := by
  unfold Regs.writeDistance; cases g.clampOn <;> rfl
@[simp] theorem Regs.writeDistance_umr (g : Regs) (u : Int) : (g.writeDistance u).umr = g.umr := by
  unfold Regs.writeDistance; cases g.clampOn <;> rfl
@[simp] theorem Regs.writeDistance_um (g : Regs) (u : Int) : (g.writeDistance u).um = if g.clampOn then wrap32 (clampTo u 0 maxUm) else wrap32 u := by
  unfold Regs.writeDistance; cases g.clampOn <;> rfl
@[simp] theorem Regs.writeDistance_mm (g : Regs) (u : Int) : (g.writeDistance u).mm = g.mm := by
  unfold Regs.writeDistance; cases g.clampOn <;> rfl
@[simp] theorem Regs.writeDistance_cb0 (g : Regs) (u : Int) : (g.writeDistance u).cb0 = g.cb0 := by
  unfold Regs.writeDistance; cases g.clampOn <;> rfl
@[simp] theorem Regs.writeDistance_cb1 (g : Regs) (u : Int) : (g.writeDistance u).cb1 = g.cb1 := by
  unfold Regs.writeDistance; cases g.clampOn <;> rfl
@[simp] theorem Regs.writeDistance_cb2 (g : Regs) (u : Int) : (g.writeDistance u).cb2 = g.cb2 := by
  unfold Regs.writeDistance; cases g.clampOn <;> rfl
@[simp] theorem Regs.writeDistance_cb3 (g : Regs) (u : Int) : (g.writeDistance u).cb3 = g.cb3 := by
  unfold Regs.writeDistance; cases g.clampOn <;> rfl

@[simp] theorem Regs.evalCurve_res (g : Regs) : g.evalCurve.res = g.res := by
  simp [Regs.evalCurve]
@[simp] theorem Regs.evalCurve_csel (g : Regs) : g.evalCurve.csel = g.csel := by
  simp [Regs.evalCurve]
@[simp] theorem Regs.evalCurve_cclamp (g : Regs) : g.evalCurve.cclamp = g.cclamp := by
  simp [Regs.evalCurve]
@[simp] theorem Regs.evalCurve_err (g : Regs) : g.evalCurve.err = g.err := by
  simp [Regs.evalCurve]
@[simp] theorem Regs.evalCurve_ov (g : Regs) : g.evalCurve.ov = (g.ov || (cubic g.bank g.v).ov) := by
  simp [Regs.evalCurve]
@[simp] theorem Regs.evalCurve_clo (g : Regs) : g.evalCurve.clo = (g.clampOn && decide (rescaleUm (cubic g.bank g.v).word < 0)) := by
  simp [Regs.evalCurve, Regs.clampOn]
@[simp] theorem Regs.evalCurve_chi (g : Regs) : g.evalCurve.chi = (g.clampOn && decide (rescaleUm (cubic g.bank g.v).word > maxUm)) := by
  simp [Regs.evalCurve, Regs.clampOn]
@[simp] theorem Regs.evalCurve_a (g : Regs) : g.evalCurve.a = g.a := by
  simp [Regs.evalCurve]
@[simp] theorem Regs.evalCurve_b (g : Regs) : g.evalCurve.b = g.b := by
  simp [Regs.evalCurve]
@[simp] theorem Regs.evalCurve_r (g : Regs) : g.evalCurve.r = g.r := by
  simp [Regs.evalCurve]
@[simp] theorem Regs.evalCurve_plo (g : Regs) : g.evalCurve.plo = g.plo := by
  simp [Regs.evalCurve]
@[simp] theorem Regs.evalCurve_phi (g : Regs) : g.evalCurve.phi = g.phi := by
  simp [Regs.evalCurve]
@[simp] theorem Regs.evalCurve_raw (g : Regs) : g.evalCurve.raw = g.raw := by
  simp [Regs.evalCurve]
@[simp] theorem Regs.evalCurve_vpin (g : Regs) : g.evalCurve.vpin = g.vpin := by
  simp [Regs.evalCurve]
@[simp] theorem Regs.evalCurve_v (g : Regs) : g.evalCurve.v = g.v := by
  simp [Regs.evalCurve]
@[simp] theorem Regs.evalCurve_fmm (g : Regs) : g.evalCurve.fmm = (cubic g.bank g.v).word := by
  simp [Regs.evalCurve]
@[simp] theorem Regs.evalCurve_umr (g : Regs) : g.evalCurve.umr = wrap32 (rescaleUm (cubic g.bank g.v).word) := by
  simp [Regs.evalCurve]
@[simp] theorem Regs.evalCurve_um (g : Regs) : g.evalCurve.um = if g.clampOn then wrap32 (clampTo (rescaleUm (cubic g.bank g.v).word) 0 maxUm) else wrap32 (rescaleUm (cubic g.bank g.v).word) := by
  simp [Regs.evalCurve, Regs.clampOn]
@[simp] theorem Regs.evalCurve_mm (g : Regs) : g.evalCurve.mm = g.mm := by
  simp [Regs.evalCurve]
@[simp] theorem Regs.evalCurve_cb0 (g : Regs) : g.evalCurve.cb0 = g.cb0 := by
  simp [Regs.evalCurve]
@[simp] theorem Regs.evalCurve_cb1 (g : Regs) : g.evalCurve.cb1 = g.cb1 := by
  simp [Regs.evalCurve]
@[simp] theorem Regs.evalCurve_cb2 (g : Regs) : g.evalCurve.cb2 = g.cb2 := by
  simp [Regs.evalCurve]
@[simp] theorem Regs.evalCurve_cb3 (g : Regs) : g.evalCurve.cb3 = g.cb3 := by
  simp [Regs.evalCurve]

/-- Everything POLY writes, as one record (42_response_curve.md R106). -/
theorem Regs.evalCurve_eq (g : Regs) :
    g.evalCurve = { g with
      fmm := (cubic g.bank g.v).word
      umr := wrap32 (rescaleUm (cubic g.bank g.v).word)
      um := if g.clampOn then wrap32 (clampTo (rescaleUm (cubic g.bank g.v).word) 0 maxUm)
        else wrap32 (rescaleUm (cubic g.bank g.v).word)
      clo := g.clampOn && decide (rescaleUm (cubic g.bank g.v).word < 0)
      chi := g.clampOn && decide (rescaleUm (cubic g.bank g.v).word > maxUm)
      ov := g.ov || (cubic g.bank g.v).ov } := by
  ext1 <;> simp

end units

section state

@[simp] theorem State.mapRegs_regs (s : State) (f : Regs → Regs) : (s.mapRegs f).regs = f s.regs := rfl
@[simp] theorem State.mapRegs_vref (s : State) (f : Regs → Regs) : (s.mapRegs f).vref = s.vref := rfl
@[simp] theorem State.mapRegs_divr (s : State) (f : Regs → Regs) : (s.mapRegs f).divr = s.divr := rfl
@[simp] theorem State.mapRegs_pending (s : State) (f : Regs → Regs) : (s.mapRegs f).pending = s.pending := rfl
@[simp] theorem State.mapRegs_returned (s : State) (f : Regs → Regs) : (s.mapRegs f).returned = s.returned := rfl
@[simp] theorem State.mapRegs_powerLosses (s : State) (f : Regs → Regs) : (s.mapRegs f).powerLosses = s.powerLosses := rfl

@[simp] theorem State.setErr_regs (s : State) (c : ErrCode) : (s.setErr c).regs = { s.regs with err := c.code } := rfl
@[simp] theorem State.setErr_vref (s : State) (c : ErrCode) : (s.setErr c).vref = s.vref := rfl
@[simp] theorem State.setErr_divr (s : State) (c : ErrCode) : (s.setErr c).divr = s.divr := rfl
@[simp] theorem State.setErr_pending (s : State) (c : ErrCode) : (s.setErr c).pending = s.pending := rfl
@[simp] theorem State.setErr_returned (s : State) (c : ErrCode) : (s.setErr c).returned = s.returned := rfl
@[simp] theorem State.setErr_powerLosses (s : State) (c : ErrCode) : (s.setErr c).powerLosses = s.powerLosses := rfl

@[simp] theorem State.raise_regs (s : State) (c : ErrCode) : (s.raise c).regs = { s.regs with err := c.code } := rfl
@[simp] theorem State.raise_vref (s : State) (c : ErrCode) : (s.raise c).vref = s.vref := rfl
@[simp] theorem State.raise_divr (s : State) (c : ErrCode) : (s.raise c).divr = s.divr := rfl
@[simp] theorem State.raise_pending (s : State) (c : ErrCode) : (s.raise c).pending = s.pending := rfl
@[simp] theorem State.raise_returned (s : State) (c : ErrCode) : (s.raise c).returned = s.returned := rfl
@[simp] theorem State.raise_powerLosses (s : State) (c : ErrCode) : (s.raise c).powerLosses = s.powerLosses := rfl

@[simp] theorem State.complete_regs (s : State) : (s.complete).regs = { s.regs with err := 0#4 } := rfl
@[simp] theorem State.complete_vref (s : State) : (s.complete).vref = s.vref := rfl
@[simp] theorem State.complete_divr (s : State) : (s.complete).divr = s.divr := rfl
@[simp] theorem State.complete_pending (s : State) : (s.complete).pending = s.pending := rfl
@[simp] theorem State.complete_returned (s : State) : (s.complete).returned = s.returned := rfl
@[simp] theorem State.complete_powerLosses (s : State) : (s.complete).powerLosses = s.powerLosses := rfl

@[simp] theorem State.platformReset_regs (s : State) : (s.platformReset).regs = Regs.reset := rfl
@[simp] theorem State.platformReset_vref (s : State) : (s.platformReset).vref = s.vref := rfl
@[simp] theorem State.platformReset_divr (s : State) : (s.platformReset).divr = s.divr := rfl
@[simp] theorem State.platformReset_pending (s : State) : (s.platformReset).pending = s.pending := rfl
@[simp] theorem State.platformReset_returned (s : State) : (s.platformReset).returned = s.returned := rfl
@[simp] theorem State.platformReset_powerLosses (s : State) : (s.platformReset).powerLosses = s.powerLosses := rfl

@[simp] theorem State.losePower_regs (s : State) : (s.losePower).regs = powerLossRegs s.powerLosses := rfl
@[simp] theorem State.losePower_vref (s : State) : (s.losePower).vref = s.vref := rfl
@[simp] theorem State.losePower_divr (s : State) : (s.losePower).divr = s.divr := rfl
@[simp] theorem State.losePower_pending (s : State) : (s.losePower).pending = s.pending := rfl
@[simp] theorem State.losePower_returned (s : State) : (s.losePower).returned = s.returned := rfl
@[simp] theorem State.losePower_powerLosses (s : State) : (s.losePower).powerLosses = s.powerLosses + 1 := rfl

end state

end Sys2Proof.Machine
end

