-- ==== Sys2Proof/Laws/Operands.lean ====
section
/-! SUPPORT. The legal resolutions, ADCMAX and the register map. -/

namespace Sys2Proof.Machine

theorem legalRes_iff (res : BitVec 5) :
    legalRes res = true ↔
      res.toNat = 6 ∨ res.toNat = 8 ∨ res.toNat = 10 ∨ res.toNat = 12 ∨ res.toNat = 14 ∨ res.toNat = 16 := by
  unfold legalRes
  split <;> simp_all

/-- A configured ADCMAX is 2^RES, between 64 and 65536 (00_scope.md R8, 41_voltage_scaling.md R98). -/
theorem adcMax_of_cfgv {g : Regs} (h : g.cfgv = true) :
    g.adcMax = 2 ^ g.res.toNat ∧ 64 ≤ g.adcMax ∧ g.adcMax ≤ 65536 := by
  have hr := (legalRes_iff g.res).1 h
  have he : g.adcMax = 2 ^ g.res.toNat := by simp [Regs.adcMax, h]
  refine ⟨he, ?_⟩
  rw [he]
  rcases hr with h | h | h | h | h | h <;> rw [h] <;> decide

/-- ADCMAX depends on CFG.RES alone (10_state.md R34). -/
theorem adcMax_congr {g k : Regs} (h : g.res = k.res) : g.adcMax = k.adcMax := by
  rw [Regs.adcMax, Regs.adcMax, Regs.cfgv, Regs.cfgv, h]

theorem toNat_ofBool_eq (b : Bool) : (BitVec.ofBool b).toNat = b.toNat := by cases b <;> rfl

theorem toNat_append_eq {n m : Nat} (x : BitVec n) (y : BitVec m) : (x ++ y).toNat = 2 ^ m * x.toNat + y.toNat := by
  rw [BitVec.toNat_append, ← Nat.shiftLeft_add_eq_or_of_lt y.isLt, Nat.shiftLeft_eq, Nat.mul_comm]

/-- CFG as a number (10_state.md R19). -/
theorem cfgWord_toNat (g : Regs) :
    g.cfgWord.toNat = g.res.toNat + 256 * g.csel.toNat + 512 * g.cclamp.toNat := by
  simp only [Regs.cfgWord, toNat_append_eq, toNat_ofBool_eq, BitVec.toNat_ofNat, Nat.reducePow, Nat.zero_mod]
  omega

/-- STATUS as a number (10_state.md R21). -/
theorem statusWord_toNat (g : Regs) :
    g.statusWord.toNat =
      g.err.toNat + 256 * g.ov.toNat + 512 * g.clo.toNat + 1024 * g.chi.toNat + 65536 * g.cfgv.toNat := by
  simp only [Regs.statusWord, toNat_append_eq, toNat_ofBool_eq, BitVec.toNat_ofNat, Nat.reducePow, Nat.zero_mod]
  omega

/-- The register map is one register per offset (10_state.md R16). -/
@[simp] theorem regAt_offset (x : Reg) : regAt x.offset = some x := by cases x <;> rfl

theorem offset_of_regAt {off : Offset} {x : Reg} (h : regAt off = some x) : x.offset = off := by
  unfold regAt at h
  have hn : BitVec.ofNat 8 off.toNat = off := by simp
  split at h <;> first
    | (rename_i ho; rw [ho] at hn; cases h; exact hn)
    | cases h

/-- An offset without a register is reserved or misaligned (10_state.md R18). -/
theorem regAt_none {off : Offset} (h : regAt off = none) (x : Reg) : off ≠ x.offset := by
  rintro rfl
  simp at h

@[simp] theorem busRead_offset (s : State) (x : Reg) : s.busRead x.offset = s.readReg x := by
  simp [State.busRead]

/-- What the host reads depends on the registers and the two constants alone. -/
theorem busRead_congr {s t : State} (hr : s.regs = t.regs) (hv : s.vref = t.vref) (hd : s.divr = t.divr)
    (off : Offset) : s.busRead off = t.busRead off := by
  unfold State.busRead
  cases regAt off with
  | none => rfl
  | some x => cases x <;> simp [State.readReg, hr, hv, hd]

end Sys2Proof.Machine
end

