-- ==== Sys2Proof/Laws/Ops.lean ====
section
/-! SUPPORT. Once for each shared operation, everything it can do. -/

namespace Sys2Proof.Machine

@[simp] theorem conclude_ok (s t : State) : s.conclude (.ok t) = .next t.complete := rfl
@[simp] theorem conclude_error (s : State) (c : ErrCode) : s.conclude (.error c) = .next (s.raise c) := rfl

/-- What the scaling unit writes when it raises nothing (41_voltage_scaling.md R96). -/
def Regs.scaled (g : Regs) (vref divr : Word) : Regs :=
  let vpin := pinVoltage (u32 g.raw) g.adcMax (s32 vref)
  let v := fx16 vpin (s32 divr)
  { g with vpin := wrap32 vpin, v := v.word, ov := g.ov || v.ov }

@[simp] theorem Regs.scaled_res (g : Regs) (p q : Word) : (g.scaled p q).res = g.res := rfl
@[simp] theorem Regs.scaled_csel (g : Regs) (p q : Word) : (g.scaled p q).csel = g.csel := rfl
@[simp] theorem Regs.scaled_cclamp (g : Regs) (p q : Word) : (g.scaled p q).cclamp = g.cclamp := rfl
@[simp] theorem Regs.scaled_err (g : Regs) (p q : Word) : (g.scaled p q).err = g.err := rfl
@[simp] theorem Regs.scaled_clo (g : Regs) (p q : Word) : (g.scaled p q).clo = g.clo := rfl
@[simp] theorem Regs.scaled_chi (g : Regs) (p q : Word) : (g.scaled p q).chi = g.chi := rfl
@[simp] theorem Regs.scaled_a (g : Regs) (p q : Word) : (g.scaled p q).a = g.a := rfl
@[simp] theorem Regs.scaled_b (g : Regs) (p q : Word) : (g.scaled p q).b = g.b := rfl
@[simp] theorem Regs.scaled_r (g : Regs) (p q : Word) : (g.scaled p q).r = g.r := rfl
@[simp] theorem Regs.scaled_plo (g : Regs) (p q : Word) : (g.scaled p q).plo = g.plo := rfl
@[simp] theorem Regs.scaled_phi (g : Regs) (p q : Word) : (g.scaled p q).phi = g.phi := rfl
@[simp] theorem Regs.scaled_raw (g : Regs) (p q : Word) : (g.scaled p q).raw = g.raw := rfl
@[simp] theorem Regs.scaled_fmm (g : Regs) (p q : Word) : (g.scaled p q).fmm = g.fmm := rfl
@[simp] theorem Regs.scaled_umr (g : Regs) (p q : Word) : (g.scaled p q).umr = g.umr := rfl
@[simp] theorem Regs.scaled_um (g : Regs) (p q : Word) : (g.scaled p q).um = g.um := rfl
@[simp] theorem Regs.scaled_mm (g : Regs) (p q : Word) : (g.scaled p q).mm = g.mm := rfl
@[simp] theorem Regs.scaled_cb0 (g : Regs) (p q : Word) : (g.scaled p q).cb0 = g.cb0 := rfl
@[simp] theorem Regs.scaled_cb1 (g : Regs) (p q : Word) : (g.scaled p q).cb1 = g.cb1 := rfl
@[simp] theorem Regs.scaled_cb2 (g : Regs) (p q : Word) : (g.scaled p q).cb2 = g.cb2 := rfl
@[simp] theorem Regs.scaled_cb3 (g : Regs) (p q : Word) : (g.scaled p q).cb3 = g.cb3 := rfl

theorem scaleUnit_enocfg {s : State} (h : s.regs.cfgv = false) : s.scaleUnit = .error .enocfg := by
  simp [State.scaleUnit, h]

theorem scaleUnit_erange {s : State} (h : s.regs.cfgv = true) (hr : s.regs.adcMax ≤ u32 s.regs.raw) :
    s.scaleUnit = .error .erange := by
  simp [State.scaleUnit, h, hr]

theorem scaleUnit_ok {s : State} (h : s.regs.cfgv = true) (hr : u32 s.regs.raw < s.regs.adcMax) :
    s.scaleUnit = .ok { s with regs := s.regs.scaled s.vref.word s.divr.word } := by
  simp only [State.scaleUnit, h, Nat.not_le.mpr hr, if_false, Bool.true_eq_false]
  rfl

/-- The three outcomes of the scaling unit (41_voltage_scaling.md R96, R98). -/
theorem scaleUnit_cases (s : State) :
    (s.regs.cfgv = false ∧ s.scaleUnit = .error .enocfg) ∨
    (s.regs.cfgv = true ∧ s.regs.adcMax ≤ u32 s.regs.raw ∧ s.scaleUnit = .error .erange) ∨
    (s.regs.cfgv = true ∧ u32 s.regs.raw < s.regs.adcMax ∧
      s.scaleUnit = .ok { s with regs := s.regs.scaled s.vref.word s.divr.word }) := by
  cases h : s.regs.cfgv with
  | false => exact .inl ⟨rfl, scaleUnit_enocfg h⟩
  | true =>
    rcases Nat.lt_or_ge (u32 s.regs.raw) s.regs.adcMax with hr | hr
    · exact .inr (.inr ⟨rfl, hr, scaleUnit_ok h hr⟩)
    · exact .inr (.inl ⟨rfl, hr, scaleUnit_erange h hr⟩)

/-- Step 1 of SCALE stays between 0 and P_VREF (41_voltage_scaling.md R99 item 2). -/
theorem pinVoltage_bounds {raw M : Nat} (hM : 64 ≤ M) (hr : raw < M) {p : Int} (hp : 0 < p) :
    0 ≤ pinVoltage raw M p ∧ pinVoltage raw M p ≤ p := by
  unfold pinVoltage
  have hd : (0 : Int) < (M : Int) - 1 := by omega
  constructor
  · exact Int.ediv_nonneg (by positivity) hd.le
  · rw [Int.ediv_le_iff_le_mul hd]
    have h : (raw : Int) ≤ (M : Int) - 1 := by omega
    nlinarith

/-- The registers a command leaves when it ends with the given error code. -/
theorem raise_eq (s : State) (c : ErrCode) : s.raise c = { s with regs := { s.regs with err := c.code } } := rfl

end Sys2Proof.Machine
end

