-- ==== Sys2Proof/Laws/Exec.lean ====
section
/-! SUPPORT. What one command, one host access and one step can do: the lemmas later proofs cite instead of
unfolding `exec` and `step`. -/

namespace Sys2Proof.Machine

/-- The registers a command that raises nothing leaves, but for ERR (10_state.md R40). -/
def cmdRegs (i : Instr) (s : State) : Regs :=
  match i with
  | .nop => s.regs
  | .fxmul sh => s.regs.multiply sh
  | .scale => s.regs.scaled s.vref.word s.divr.word
  | .poly => s.regs.evalCurve
  | .clamp => s.regs.saturate
  | .tomm => s.regs.toMm
  | .readum => (s.regs.scaled s.vref.word s.divr.word).evalCurve
  | .readmm => (s.regs.scaled s.vref.word s.divr.word).evalCurve.toMm
  | .clrst => s.regs.clearOv.clearClampFlags

/-- The commands that need a configured resolution and a sample in range (60_exceptions.md R143). -/
def scales : Instr → Bool
  | .scale | .readum | .readmm => true
  | .nop | .fxmul _ | .poly | .clamp | .tomm | .clrst => false

/-- Everything a command can do: raise ENOCFG or ERANGE, or complete (60_exceptions.md R143). -/
theorem exec_cases (i : Instr) (s : State) :
    (scales i = true ∧ s.regs.cfgv = false ∧ exec i s = .next (s.raise .enocfg)) ∨
    (scales i = true ∧ s.regs.cfgv = true ∧ s.regs.adcMax ≤ u32 s.regs.raw ∧ exec i s = .next (s.raise .erange)) ∨
    ((scales i = true → s.regs.cfgv = true ∧ u32 s.regs.raw < s.regs.adcMax) ∧
      exec i s = .next { s with regs := { cmdRegs i s with err := 0#4 } }) := by
  have hs := scaleUnit_cases s
  cases i
  case scale | readum | readmm =>
    rcases hs with ⟨h, e⟩ | ⟨h, hr, e⟩ | ⟨h, hr, e⟩
    · refine .inl ⟨rfl, h, ?_⟩
      simp [exec, execScale, execReadum, execReadmm, e, Except.map]
    · refine .inr (.inl ⟨rfl, h, hr, ?_⟩)
      simp [exec, execScale, execReadum, execReadmm, e, Except.map]
    · refine .inr (.inr ⟨fun _ => ⟨h, hr⟩, ?_⟩)
      simp [exec, execScale, execReadum, execReadmm, e, Except.map, cmdRegs, State.complete, State.setErr,
        State.mapRegs, ErrCode.code]
  all_goals exact .inr (.inr ⟨(by intro h; cases h), rfl⟩)

/-- A command leaves everything but the registers alone. -/
theorem exec_next (i : Instr) (s : State) : ∃ g : Regs, exec i s = .next { s with regs := g } := by
  rcases exec_cases i s with ⟨_, _, e⟩ | ⟨_, _, _, e⟩ | ⟨_, e⟩
  · exact ⟨_, e⟩
  · exact ⟨_, e⟩
  · exact ⟨_, e⟩

/-- Everything a CMD write can do (30_encoding.md R66, R72). -/
theorem executeWord_cases (w : Word) (s : State) :
    (∃ i, decode w = .ok i ∧ executeWord w s = exec i s) ∨
    (∃ e, decode w = .error e ∧ executeWord w s = .next (s.raise .eill)) := by
  unfold executeWord
  cases h : decode w with
  | ok i => exact .inl ⟨i, rfl, rfl⟩
  | error e => exact .inr ⟨e, rfl, rfl⟩

theorem executeWord_next (w : Word) (s : State) : ∃ g : Regs, executeWord w s = .next { s with regs := g } := by
  rcases executeWord_cases w s with ⟨i, _, e⟩ | ⟨_, _, e⟩
  · rw [e]; exact exec_next i s
  · exact ⟨_, e⟩

theorem writeReg_next (s : State) (x : Reg) (w : Word) : ∃ g : Regs, s.writeReg x w = .next { s with regs := g } := by
  cases x
  case cmd => exact executeWord_next w s
  case cfg =>
    simp only [State.writeReg, State.writeCfg]
    split <;> exact ⟨_, rfl⟩
  case status =>
    simp only [State.writeReg, State.writeStatus]
    split
    · exact ⟨_, rfl⟩
    · exact ⟨s.regs, rfl⟩
  all_goals first
    | exact ⟨s.regs, rfl⟩
    | exact ⟨_, rfl⟩

/-- A host write changes registers alone (20_memory.md R54). -/
theorem busWrite_next (s : State) (off : Offset) (w : Word) :
    ∃ g : Regs, s.busWrite off w = .next { s with regs := g } := by
  unfold State.busWrite
  cases regAt off with
  | none => exact ⟨s.regs, rfl⟩
  | some x => exact writeReg_next s x w

/-- What a command writes depends on the registers and the two constants alone (10_state.md R38, R40). -/
theorem exec_congr (i : Instr) {s t : State} (hr : t.regs = s.regs) (hv : t.vref = s.vref) (hd : t.divr = s.divr) :
    ∃ g : Regs, exec i s = .next { s with regs := g } ∧ exec i t = .next { t with regs := g } := by
  have hc : cmdRegs i t = cmdRegs i s := by cases i <;> simp [cmdRegs, hr, hv, hd]
  have ht := exec_cases i t
  rw [hc, hr] at ht
  rcases exec_cases i s with ⟨a, b, e⟩ | ⟨a, b, c, e⟩ | ⟨a, e⟩
  · refine ⟨_, e, ?_⟩
    rcases ht with ⟨_, _, e'⟩ | ⟨_, b', _, _⟩ | ⟨a', _⟩
    · rw [e', State.raise, State.setErr, State.mapRegs, hr]
    · rw [b] at b'; cases b'
    · rw [b] at a'; cases (a' a).1
  · refine ⟨_, e, ?_⟩
    rcases ht with ⟨_, b', _⟩ | ⟨_, _, _, e'⟩ | ⟨a', _⟩
    · rw [b] at b'; cases b'
    · rw [e', State.raise, State.setErr, State.mapRegs, hr]
    · exact absurd (a' a).2 (Nat.not_lt.2 c)
  · refine ⟨_, e, ?_⟩
    rcases ht with ⟨a', b', _⟩ | ⟨a', _, c', _⟩ | ⟨_, e'⟩
    · rw [(a a').1] at b'; cases b'
    · exact absurd (a a').2 (Nat.not_lt.2 c')
    · exact e'

/-- What a host write writes depends on the registers and the two constants alone (10_state.md R38). -/
theorem busWrite_congr {s t : State} (hr : t.regs = s.regs) (hv : t.vref = s.vref) (hd : t.divr = s.divr)
    (off : Offset) (w : Word) :
    ∃ g : Regs, s.busWrite off w = .next { s with regs := g } ∧ t.busWrite off w = .next { t with regs := g } := by
  unfold State.busWrite
  cases regAt off with
  | none => exact ⟨s.regs, rfl, by rw [← hr]⟩
  | some x =>
    cases x
    case cmd =>
      simp only [State.writeReg, executeWord]
      cases decode w with
      | ok i => exact exec_congr i hr hv hd
      | error e => exact ⟨_, rfl, by rw [State.raise, State.setErr, State.mapRegs, hr]⟩
    case cfg =>
      simp only [State.writeReg, State.writeCfg]
      split
      · exact ⟨_, rfl, by simp only [State.complete, State.setErr, State.mapRegs, hr]⟩
      · exact ⟨_, rfl, by rw [State.raise, State.setErr, State.mapRegs, hr]⟩
    case status =>
      simp only [State.writeReg, State.writeStatus]
      split
      · exact ⟨_, rfl, by rw [State.mapRegs, hr]⟩
      · exact ⟨s.regs, rfl, by rw [← hr]⟩
    all_goals first
      | exact ⟨s.regs, rfl, by rw [← hr]; rfl⟩
      | exact ⟨_, rfl, by simp only [State.writeReg, State.mapRegs, hr]⟩

/-- Everything a step can do (20_memory.md R48, R53, R54, R55). -/
theorem step_cases (s : State) :
    (s.pending = [] ∧ step s = .next s) ∨
    (∃ rest, s.pending = .reset :: rest ∧ step s = .next { s with pending := rest, regs := Regs.reset }) ∨
    (∃ rest, s.pending = .powerLoss :: rest ∧
      step s = .next { s with pending := rest, regs := powerLossRegs s.powerLosses, powerLosses := s.powerLosses + 1 }) ∨
    (∃ x rest, s.pending = .access x :: rest ∧ x.width ≠ .word ∧ step s = .refused .narrowAccess) ∨
    (∃ x rest, s.pending = .access x :: rest ∧ x.width = .word ∧ x.off.toNat % 4 ≠ 0 ∧
      step s = .refused .misalignedAccess) ∨
    (∃ x rest, s.pending = .access x :: rest ∧ x.width = .word ∧ x.off.toNat % 4 = 0 ∧ x.op = .read ∧
      step s = .next { s with pending := rest, returned := s.returned ++ [⟨x.ctx, x.off, s.busRead x.off⟩] }) ∨
    (∃ x rest w, s.pending = .access x :: rest ∧ x.width = .word ∧ x.off.toNat % 4 = 0 ∧ x.op = .write w ∧
      step s = ({ s with pending := rest } : State).busWrite x.off w) := by
  cases hp : s.pending with
  | nil => exact .inl ⟨rfl, by simp [step, hp]⟩
  | cons e rest =>
    cases e with
    | reset => exact .inr (.inl ⟨rest, rfl, by simp [step, hp, State.handle, State.platformReset]⟩)
    | powerLoss => exact .inr (.inr (.inl ⟨rest, rfl, by simp [step, hp, State.handle, State.losePower]⟩))
    | access x =>
      cases hw : x.width with
      | byte => exact .inr (.inr (.inr (.inl ⟨x, rest, rfl, by simp [hw], by simp [step, hp, State.handle, State.perform, hw]⟩)))
      | half => exact .inr (.inr (.inr (.inl ⟨x, rest, rfl, by simp [hw], by simp [step, hp, State.handle, State.perform, hw]⟩)))
      | word =>
        by_cases ha : x.off.toNat % 4 = 0
        · cases ho : x.op with
          | read =>
            refine .inr (.inr (.inr (.inr (.inr (.inl ⟨x, rest, rfl, hw, ha, ho, ?_⟩)))))
            have hb : ({ s with pending := rest } : State).busRead x.off = s.busRead x.off :=
              busRead_congr rfl rfl rfl _
            simp [step, hp, State.handle, State.perform, hw, ha, State.wordAccess, ho, State.busReturn, hb]
          | write w =>
            refine .inr (.inr (.inr (.inr (.inr (.inr ⟨x, rest, w, rfl, hw, ha, ho, ?_⟩)))))
            simp [step, hp, State.handle, State.perform, hw, ha, State.wordAccess, ho]
        · refine .inr (.inr (.inr (.inr (.inl ⟨x, rest, rfl, hw, ha, ?_⟩))))
          simp [step, hp, State.handle, State.perform, hw, ha]

/-- A write by `wr` (30_encoding.md R75) is the register's write. -/
theorem step_wr {s : State} {ctx : Nat} {x : Reg} {w : Word} {rest : List Event}
    (h : s.pending = wr ctx x w :: rest) : step s = ({ s with pending := rest } : State).writeReg x w := by
  have ha : x.offset.toNat % 4 = 0 := by cases x <;> decide
  simp [step, h, wr, State.handle, State.perform, ha, State.wordAccess, State.busWrite]

/-- An aligned 32-bit read (20_memory.md R51, R53). -/
theorem step_read {s : State} {ctx : Nat} {off : Offset} {rest : List Event} (ha : off.toNat % 4 = 0)
    (h : s.pending = .access ⟨ctx, .word, off, .read⟩ :: rest) :
    step s = .next { s with pending := rest, returned := s.returned ++ [⟨ctx, off, s.busRead off⟩] } := by
  have hb : ({ s with pending := rest } : State).busRead off = s.busRead off := busRead_congr rfl rfl rfl _
  simp [step, h, State.handle, State.perform, ha, State.wordAccess, State.busReturn, hb]

/-- An aligned 32-bit write (20_memory.md R54). -/
theorem step_write {s : State} {ctx : Nat} {off : Offset} {w : Word} {rest : List Event} (ha : off.toNat % 4 = 0)
    (h : s.pending = .access ⟨ctx, .word, off, .write w⟩ :: rest) :
    step s = ({ s with pending := rest } : State).busWrite off w := by
  simp [step, h, State.handle, State.perform, ha, State.wordAccess]

end Sys2Proof.Machine
end

