-- ==== Sys2Proof/Laws/PerInstr.lean ====
section
/-! SUPPORT. Statements for every command as syntax, one lemma per constructor. -/

namespace Sys2Proof.Laws.OpcodeField

/-- The encoded word carries the command's opcode in OP and 0 in RSV (30_encoding.md R67, R71). -/
def Statement (i : Instr) : Prop := opField (encode i) = i.opcode ∧ rsvField (encode i) = 0

theorem of_instr (i : Instr) : Statement i := by
  have h := encode_toNat i
  have ho := i.opcode.isLt
  constructor
  · apply BitVec.eq_of_toNat_eq
    rw [opField_toNat]
    omega
  · apply BitVec.eq_of_toNat_eq
    rw [rsvField_toNat]
    exact Nat.div_eq_of_lt (by omega)

theorem nop : Statement .nop := of_instr _
theorem fxmul (sh : Nat) : Statement (.fxmul sh) := of_instr _
theorem scale : Statement .scale := of_instr _
theorem poly : Statement .poly := of_instr _
theorem clamp : Statement .clamp := of_instr _
theorem tomm : Statement .tomm := of_instr _
theorem readum : Statement .readum := of_instr _
theorem readmm : Statement .readmm := of_instr _
theorem clrst : Statement .clrst := of_instr _

end Sys2Proof.Laws.OpcodeField
end

