-- ==== Sys2Proof/Laws/Run.lean ====
section
/-! SUPPORT. Runs of the machine behind the host's interface, one step at a time, and the induction over the
states reachable from reset. -/

namespace Sys2Proof.Machine

theorem run_zero (s : State) : Host.Core.run Sys2Proof.core 0 s = .next s := rfl

/-- A run of k + 1 steps whose first step answers a next state is the run of k steps from there. -/
theorem run_of_step {s t : State} (h : step s = .next t) (k : Nat) :
    Host.Core.run Sys2Proof.core (k + 1) s = Host.Core.run Sys2Proof.core k t := by
  have h' : Sys2Proof.core.step s = .next t := h
  simp only [Host.Core.run, h']

/-- A step on a legal event, or on none, answers a next state (20_memory.md R48). -/
theorem step_next_of_legal {s : State} (hl : ∀ e ∈ s.pending, e.legal = true) : ∃ t, step s = .next t := by
  have head : ∀ {x : Access} {rest : List Event}, s.pending = .access x :: rest →
      x.width = .word ∧ x.off.toNat % 4 = 0 := by
    intro x rest hp
    have h := hl (.access x) (by rw [hp]; exact List.mem_cons_self)
    simpa [Event.legal, Access.legal] using h
  rcases step_cases s with ⟨_, e⟩ | ⟨_, _, e⟩ | ⟨_, _, e⟩ | ⟨_, _, hp, hw, _⟩ | ⟨_, _, hp, _, ha, _⟩ |
    ⟨_, _, _, _, _, _, e⟩ | ⟨x, rest, w, _, _, _, _, e⟩
  · exact ⟨_, e⟩
  · exact ⟨_, e⟩
  · exact ⟨_, e⟩
  · exact absurd (head hp).1 hw
  · exact absurd (head hp).2 ha
  · exact ⟨_, e⟩
  · obtain ⟨g, hg⟩ := busWrite_next { s with pending := rest } x.off w
    exact ⟨_, e.trans hg⟩

/-- A legal access: the registers it leaves depend on the registers and parameters alone, whatever the environment
(10_state.md R38), and of the environment it takes itself and may append a value read. -/
theorem step_access (s : State) {x : Access} (hl : x.legal = true) :
    ∃ g : Regs, ∀ t : State, t.regs = s.regs → t.vref = s.vref → t.divr = s.divr →
      ∀ rest, t.pending = .access x :: rest →
        ∃ new, step t = .next { t with regs := g, pending := rest, returned := t.returned ++ new } := by
  obtain ⟨ctx, width, off, op⟩ := x
  obtain ⟨rfl, ha⟩ : width = .word ∧ off.toNat % 4 = 0 := by simpa [Access.legal] using hl
  cases op with
  | read => exact ⟨s.regs, fun t hr _ _ rest hp => ⟨_, by rw [step_read ha hp, ← hr]⟩⟩
  | write w =>
    obtain ⟨g, hg⟩ := busWrite_next s off w
    refine ⟨g, fun t hr hv hd rest hp => ⟨[], ?_⟩⟩
    obtain ⟨k, hk, ht⟩ := busWrite_congr (t := { t with pending := rest }) hr hv hd off w
    have hkg : k = g := congrArg State.regs (Host.Outcome.next.inj (hk.symm.trans hg))
    rw [step_write ha hp, ht, hkg, List.append_nil]

/-- A run of legal accesses, in front of any further events: the same of all of them, in as many steps. -/
theorem run_accesses (xs : List Access) (hl : ∀ x ∈ xs, x.legal = true) (s : State) :
    ∃ g : Regs, ∀ t : State, t.regs = s.regs → t.vref = s.vref → t.divr = s.divr →
      ∀ rest, t.pending = xs.map .access ++ rest →
        ∃ new, Host.Core.run Sys2Proof.core xs.length t =
          .next { t with regs := g, pending := rest, returned := t.returned ++ new } := by
  induction xs generalizing s with
  | nil =>
    refine ⟨s.regs, fun t hr _ _ rest hp => ⟨[], ?_⟩⟩
    simp only [List.map_nil, List.nil_append] at hp
    rw [List.length_nil, run_zero, ← hr, ← hp, List.append_nil]
  | cons x xs ih =>
    obtain ⟨g, hg⟩ := step_access s (hl x List.mem_cons_self)
    obtain ⟨k, hk⟩ := ih (fun y hy => hl y (List.mem_cons_of_mem _ hy)) { s with regs := g }
    refine ⟨k, fun t hr hv hd rest hp => ?_⟩
    obtain ⟨a, ha⟩ := hg t hr hv hd (xs.map Event.access ++ rest) hp
    obtain ⟨b, hb⟩ := hk { t with regs := g, pending := xs.map .access ++ rest, returned := t.returned ++ a } rfl hv hd
      rest rfl
    refine ⟨a ++ b, ?_⟩
    rw [List.length_cons, run_of_step ha, ← List.append_assoc]
    exact hb

/-- What holds at reset, does not depend on the environment, and is kept by every legal access, holds of every
reachable state (70_reset_and_hazards.md R174). -/
theorem Reachable.induction {P : State → Prop}
    (congr : ∀ s t : State, t.regs = s.regs → t.vref = s.vref → t.divr = s.divr → P s → P t)
    (atReset : ∀ p q, P (State.resetWith p q))
    (kept : ∀ (s t : State) (x : Access) (rest : List Event), x.legal = true → s.pending = .access x :: rest → P s →
      step s = .next t → P t) {s : State} (h : s.Reachable) : P s := by
  have runs : ∀ (xs : List Access) (a b : State), (∀ x ∈ xs, x.legal = true) → a.pending = xs.map .access → P a →
      Host.Core.run Sys2Proof.core xs.length a = .next b → P b ∧ b.vref = a.vref ∧ b.divr = a.divr := by
    intro xs
    induction xs with
    | nil => intro a b _ _ ha hb; cases hb; exact ⟨ha, rfl, rfl⟩
    | cons x xs ih =>
      intro a b hl hp ha hb
      obtain ⟨g, hg⟩ := step_access a (hl x List.mem_cons_self)
      obtain ⟨new, hs⟩ := hg a rfl rfl rfl _ hp
      rw [List.length_cons, run_of_step hs] at hb
      exact ih { a with regs := g, pending := xs.map .access, returned := a.returned ++ new } b
        (fun y hy => hl y (List.mem_cons_of_mem _ hy)) rfl (kept a _ x _ (hl x List.mem_cons_self) hp ha hs) hb
  obtain ⟨xs, t, ⟨hl, hr⟩, hregs⟩ := h
  have ha : P ((State.resetWith s.vref s.divr).startRun xs) := congr (State.resetWith s.vref s.divr) _ rfl rfl rfl (atReset s.vref s.divr)
  obtain ⟨ht, hv, hd⟩ := runs xs _ t hl rfl ha hr
  exact congr t s hregs.symm hv.symm hd.symm ht

end Sys2Proof.Machine
end

