-- ==== Sys2Proof/Tests/Slice0.lean ====
section
/-! SUPPORT. The model's own tests: expected values from spec/ (95_test_vectors.md and the corner-case tables of
the command rules), and a concrete state meeting the hypotheses of each statement. -/

namespace Sys2Proof.Tests

open Sys2Proof.Machine Sys2Proof.Claims

/-- The test parameters of 95_test_vectors.md: P_VREF = 3.3, P_DIVR = 3.5. -/
def base : State :=
  { State.reset with vref := ⟨0x00034CCD#32, by decide⟩, divr := ⟨0x00038000#32, by decide⟩ }

def withRegs (f : Regs → Regs) : State := base.mapRegs f

/-- Configured with resolution `res` and a raw sample. -/
def sampled (res : BitVec 5) (raw : Word) : State := withRegs fun g => { g with res := res, raw := raw }

def withNext (s : State) (e : Event) : State := { s with pending := [e] }

/-- Some registers of the next state, `none` on a fault or a refusal. -/
def after {α : Type} (o : Host.Outcome State Fault Refusal) (f : Regs → α) : Option α :=
  match o with
  | .next t => some (f t.regs)
  | .fault _ => none
  | .refused _ => none

/-- What the host reads at an offset of the next state. -/
def readAfter (o : Host.Outcome State Fault Refusal) (off : Offset) : Option Word :=
  match o with
  | .next t => some (t.busRead off)
  | .fault _ => none
  | .refused _ => none

/-! WellFormed: the one check, and a term it refuses. -/

theorem test_wf_shift_63 : (Instr.fxmul 63).wf = true := by decide
theorem test_wf_refuses_shift_64 : (Instr.fxmul 64).wf = false := by decide

/-! Decode: words written out bit by bit as RSV, SH, OP (30_encoding.md R67, R71), and 95 section 2.2. -/

theorem test_decode_nop : decode 0b00000000000000000000000000000000#32 = .ok .nop := by decide
theorem test_decode_fxmul16 : decode 0b00000000000000000001000000000001#32 = .ok (.fxmul 16) := by decide
theorem test_decode_fxmul63 : decode 0b00000000000000000011111100000001#32 = .ok (.fxmul 63) := by decide
theorem test_decode_scale : decode 0b00000000000000000000000000000010#32 = .ok .scale := by decide
theorem test_decode_poly : decode 0b00000000000000000000000000000011#32 = .ok .poly := by decide
theorem test_decode_clamp : decode 0b00000000000000000000000000000100#32 = .ok .clamp := by decide
theorem test_decode_tomm : decode 0b00000000000000000000000000000101#32 = .ok .tomm := by decide
theorem test_decode_readum : decode 0b00000000000000000000000000000110#32 = .ok .readum := by decide
theorem test_decode_readmm : decode 0b00000000000000000000000000000111#32 = .ok .readmm := by decide
theorem test_decode_clrst : decode 0b00000000000000000000000000001000#32 = .ok .clrst := by decide
theorem test_decode_bit14 : decode 0x00004001#32 = .error .reservedBits := by decide
theorem test_decode_rsv_poly : decode 0xC0000003#32 = .error .reservedBits := by decide
theorem test_decode_sh_scale : decode 0x00000102#32 = .error .shiftNotAllowed := by decide
theorem test_decode_op9 : decode 0x00000009#32 = .error .reservedOpcode := by decide
theorem test_encode_fxmul63 : encode (.fxmul 63) = 0x00003F01#32 := by decide
theorem test_decodeTableWord_fxmul : decodeTableWord 32 0x1001 = some (.fxmul 16) := by decide
theorem test_decodeTableWord_illegal : decodeTableWord 32 0x4001 = none := by decide

/-- The word placed by withFetchWord runs as the first command after reset: SCALE while unconfigured gives
ENOCFG (95 section 2.2), whatever the parameters. -/
theorem test_withFetchWord_scale : after (step (State.reset.withFetchWord 32 2)) (fun g => g.err) = some 2#4 := by
  decide

/-- An illegal word after reset: STATUS = 4 (95 section 2.2). -/
theorem test_withFetchWord_illegal :
    readAfter (step (State.reset.withFetchWord 32 0x4001)) 0x04#8 = some 0x00000004#32 := by decide

/-! FXMUL (40_fixed_point.md R88). -/

theorem test_fxmul_negative :
    after (exec (.fxmul 16) (withRegs fun g => { g with a := 0xFFFF8000#32, b := 0x00018000#32 }))
      (fun g => (g.phi, g.plo, g.r, g.ov)) = some (0xFFFFFFFF#32, 0x40000000#32, 0xFFFF4000#32, false) := by decide

theorem test_fxmul_overflow :
    after (exec (.fxmul 16) (withRegs fun g => { g with a := 0x7FFFFFFF#32, b := 0x7FFFFFFF#32 }))
      (fun g => (g.phi, g.plo, g.r, g.ov)) = some (0x3FFFFFFF#32, 0x00000001#32, 0xFFFF0000#32, true) := by decide

/-! SCALE (41_voltage_scaling.md R96, R101). -/

theorem test_scale_2048 :
    after (exec .scale (sampled 12#5 2048#32)) (fun g => (g.vpin, g.v, g.ov)) =
      some (0x0001A680#32, 0x0005C6C0#32, false) := by decide

theorem test_scale_overflow :
    after (exec .scale { sampled 16#5 65535#32 with
      vref := ⟨0x7FFFFFFF#32, by decide⟩, divr := ⟨0x7FFFFFFF#32, by decide⟩ }) (fun g => (g.vpin, g.v, g.ov)) =
      some (0x7FFFFFFF#32, 0xFFFF0000#32, true) := by decide

/-! POLY (42_response_curve.md R113). -/

theorem test_poly_five_volts :
    after (exec .poly (withRegs fun g => { g with v := 0x00050000#32 })) (fun g => (g.fmm, g.umr, g.um, g.ov)) =
      some (0x0003C371#32, 3763#32, 3763#32, false) := by decide

theorem test_poly_unclamped_negative :
    after (exec .poly (withRegs fun g => { g with
      csel := true, cclamp := false, cb0 := 0#32, cb1 := 0x00010000#32, cb2 := 0#32, cb3 := 0#32, v := 0xFFFD8000#32 }))
      (fun g => (g.fmm, g.um, g.clo, g.chi)) = some (0xFFFD8000#32, 0xFFFFF63C#32, false, false) := by decide

/-! CLAMP and TOMM (43_clamp_convert.md R122, R128). -/

theorem test_clamp_high :
    after (exec .clamp (withRegs fun g => { g with um := 0x00002711#32 })) (fun g => (g.um, g.clo, g.chi)) =
      some (10000#32, false, true) := by decide

theorem test_clamp_lowest :
    after (exec .clamp (withRegs fun g => { g with um := 0x80000000#32 })) (fun g => (g.um, g.clo, g.chi)) =
      some (0#32, true, false) := by decide

theorem test_tomm_minus_1500 :
    after (exec .tomm (withRegs fun g => { g with um := 0xFFFFFA24#32 })) (fun g => g.mm) = some 0xFFFFFFFF#32 := by
  decide

theorem test_tomm_lowest :
    after (exec .tomm (withRegs fun g => { g with um := 0x80000000#32 })) (fun g => g.mm) = some 0xFFDF3B65#32 := by
  decide

/-! READUM and READMM (44_orchestration.md R131, R133, R136). -/

theorem test_readum_2048 :
    after (exec .readum (sampled 12#5 2048#32)) (fun g => (g.v, g.fmm, g.umr, g.um)) =
      some (0x0005C6C0#32, 0x000424A3#32, 4143#32, 4143#32) := by decide

theorem test_readum_4095 :
    after (exec .readum (sampled 12#5 4095#32)) (fun g => (g.fmm, g.umr, g.um, g.chi)) =
      some (0x000B3E1D#32, 11242#32, 10000#32, true) := by decide

theorem test_readmm_3000 :
    after (exec .readmm (sampled 12#5 3000#32)) (fun g => (g.um, g.mm)) = some (6033#32, 6#32) := by decide

theorem test_readmm_erange :
    exec .readmm (sampled 12#5 4096#32) = .next (withErr (sampled 12#5 4096#32) 3#4) := by rfl

/-- The driver returns the UM of the worked example of 44_orchestration.md R131 (60_exceptions.md R145). -/
theorem test_driver_read_2048 :
    (match exec .readum (sampled 12#5 2048#32) with
      | .next t => some (driverRead t.regs true (t.busRead 0x34#8))
      | .fault _ => none
      | .refused _ => none) = some (.measurement 4143) := by decide

/-! NOP and CLRST (95 section 2.6), CFG and STATUS writes (95 section 2.1). -/

/-- STATUS = 0x00010503: ERR = ERANGE, OV = 1, CHI = 1, CFGV = 1. -/
def status10503 : State := withRegs fun g => { g with res := 12#5, err := 3#4, ov := true, chi := true }

theorem test_status_word : status10503.busRead 0x04#8 = 0x00010503#32 := by decide
theorem test_nop_status : readAfter (exec .nop status10503) 0x04#8 = some 0x00010500#32 := by decide
theorem test_clrst_status : readAfter (exec .clrst status10503) 0x04#8 = some 0x00010000#32 := by decide
theorem test_status_w1c :
    readAfter (step (withNext status10503 (wr 0 .status 0x00000100#32))) 0x04#8 = some 0x00010403#32 := by decide
theorem test_cfg_reserved_bits :
    readAfter (step (withNext base (wr 0 .cfg 0xFFFFFF0C#32))) 0x00#8 = some 0x0000030C#32 := by decide
theorem test_cfg_rejected :
    readAfter (step (withNext base (wr 0 .cfg 0x00000207#32))) 0x04#8 = some 0x00000001#32 := by decide
theorem test_adcmax_16 :
    readAfter (step (withNext base (wr 0 .cfg 0x00000210#32))) 0x3C#8 = some 0x00010000#32 := by decide
theorem test_read_returns_value :
    (match step (withNext base (rd 7 .db2)) with
      | .next t => some t.returned
      | .fault _ => none
      | .refused _ => none) = some [⟨7, 0x54#8, 0xFFFFBEAB#32⟩] := by decide

/-! The assembler (30_encoding.md R74, R76). -/

theorem test_assemble_lines :
    assembleWord? "  Readmm ; one command per line".toList = some 0x00000007#32 ∧
    assembleWord? "FXMUL 0x3F".toList = some 0x00003F01#32 ∧ assembleWord? "SCALE 1".toList = none := by decide

/-! Witnesses: a concrete state and operands that meet the hypotheses of each statement, at the ends of the
ranges its clauses speak of. -/

theorem witness_ParametersLegalAndConstant :
    (1 ≤ (1#32 : Word).toInt ∧ (0x7FFFFFFF#32 : Word).toInt ≤ 2147483647) ∧ ¬(1 ≤ (0#32 : Word).toInt) ∧
    ¬(1 ≤ (0x80000000#32 : Word).toInt) ∧ step base = .next base := ⟨by decide, by decide, by decide, rfl⟩

theorem witness_LiteralRoundingIsNearestTiesAway :
    0 < 2 ∧ 2 * |roundHalfAway (-3) 2 * (2 : Nat) - (-3)| = ((2 : Nat) : Int) := by decide

theorem witness_ResetRegisterValues : 0 < 64 ∧ 63 < 64 := by decide

theorem witness_PlatformResetRestoresEveryRegister :
    (withNext status10503 .reset).pending = .reset :: [] := rfl

theorem witness_ResetAfterPowerLossRestores :
    ({ status10503 with pending := [.powerLoss, .reset] } : State).pending = .powerLoss :: .reset :: [] := rfl

theorem witness_BusReadReturnsTheTableValue :
    ((0x00#8 : Offset).toNat % 4 = 0 ∧ (withNext base (word 0 0x00#8 .read)).pending = word 0 0x00#8 .read :: []) ∧
    ((0xFC#8 : Offset).toNat % 4 = 0 ∧ (withNext base (word 0 0xFC#8 .read)).pending = word 0 0xFC#8 .read :: []) :=
  ⟨⟨by decide, rfl⟩, by decide, rfl⟩

theorem witness_WindowBytesAreLittleEndian : 0 < 64 ∧ 63 < 64 ∧ 0 < 4 ∧ 3 < 4 := by decide

theorem witness_NarrowOrMisalignedAccessIsRefused :
    (withNext base (.access ⟨0, .byte, 0x00#8, .read⟩)).pending = .access ⟨0, .byte, 0x00#8, .read⟩ :: [] ∧
    (withNext base (.access ⟨0, .word, 0x01#8, .read⟩)).pending = .access ⟨0, .word, 0x01#8, .read⟩ :: [] ∧
    (0x01#8 : Offset).toNat % 4 ≠ 0 := ⟨rfl, rfl, by decide⟩

theorem witness_OperandWriteStoresTheWord :
    (Reg.a ∈ storable ∧ (withNext base (wr 0 .a 5#32)).pending = word 0 Reg.a.offset (.write 5#32) :: []) ∧
    (Reg.cb3 ∈ storable ∧ (withNext base (wr 0 .cb3 5#32)).pending = word 0 Reg.cb3.offset (.write 5#32) :: []) :=
  ⟨⟨by decide, rfl⟩, by decide, rfl⟩

theorem witness_ReadOnlyAndReservedWritesAreIgnored :
    (∃ x ∈ readOnly, (0x58#8 : Offset) = x.offset) ∧
    (0x6C ≤ (0x6C#8 : Offset).toNat ∧ (0x6C#8 : Offset).toNat % 4 = 0) ∧
    (0x6C ≤ (0xFC#8 : Offset).toNat ∧ (0xFC#8 : Offset).toNat % 4 = 0) ∧
    (withNext base (word 0 0x6C#8 (.write 5#32))).pending = word 0 0x6C#8 (.write 5#32) :: [] :=
  ⟨by decide, by decide, by decide, rfl⟩

/-- For CfgWriteIsValidatedAsAWhole and NopResult. -/
theorem witness_CfgWriteIsValidatedAsAWhole :
    (withNext base (wr 0 .cfg 0x206#32)).pending = word 0 0x00#8 (.write 0x206#32) :: [] ∧
    (0x206#32 : Word).toNat % 32 ∈ [6, 8, 10, 12, 14, 16] ∧ (0x210#32 : Word).toNat % 32 ∈ [6, 8, 10, 12, 14, 16] ∧
    (0x207#32 : Word).toNat % 32 ∉ [6, 8, 10, 12, 14, 16] ∧ (0x200#32 : Word).toNat % 32 ∉ [6, 8, 10, 12, 14, 16] ∧
    (0x21F#32 : Word).toNat % 32 ∉ [6, 8, 10, 12, 14, 16] :=
  ⟨rfl, by decide, by decide, by decide, by decide, by decide⟩

theorem witness_StatusWriteClearsOvAlone :
    (withNext status10503 (wr 0 .status 0x100#32)).pending = word 0 0x04#8 (.write 0x100#32) :: [] := rfl

theorem witness_WindowIs256BytesFromItsBase : Config.pBase + 256 ≤ Config.pBase + 256 := Nat.le_refl _

/-- A step that answers a next state after a read: for the statements about every step. -/
theorem witness_StepTakesOneEvent : ∃ t, step (withNext base (rd 0 .cfg)) = .next t := ⟨_, rfl⟩

theorem witness_NoEventHoldsTheState : base.pending = [] ∧ step base = .next base := ⟨rfl, rfl⟩

theorem witness_ContextsAreNotToldApart :
    (∃ t, step (withNext base (cmd 3 .poly)) = .next t) ∧
    step (withNext base (.access ⟨3, .half, 0x00#8, .read⟩)) = .refused .narrowAccess := ⟨⟨_, rfl⟩, rfl⟩

theorem witness_DecodeIsTheOpcodeMap :
    (Instr.nop, 0x00000000#32, 0xFFFFFFFF#32) ∈ opcodeRows ∧ (Instr.clrst, 0x00000008#32, 0xFFFFFFFF#32) ∈ opcodeRows ∧
    0x00000008#32 &&& 0xFFFFFFFF#32 = 0x00000008#32 ∧ 0x00003F01#32 &&& 0xFFFFC0FF#32 = 0x00000001#32 := by decide

theorem witness_DecodeOfEncodeIsTheCommand :
    (Instr.fxmul 0).wf = true ∧ (Instr.fxmul 63).wf = true ∧ Instr.clrst.wf = true := by decide

theorem witness_EncodeOfDecodeIsTheWord :
    decode 0x00000000#32 = .ok .nop ∧ decode 0x00003F01#32 = .ok (.fxmul 63) := by decide

theorem witness_StepRunsTheDecodedCommand :
    decode 0x00000008#32 = .ok .clrst ∧
    (withNext base (cmdWord 0 8#32)).pending = word 0 0x08#8 (.write 8#32) :: [] := ⟨by decide, rfl⟩

theorem witness_IllegalWordsRaiseEillAlone :
    (withNext base (cmdWord 0 9#32)).pending = word 0 0x08#8 (.write 9#32) :: [] ∧ IllegalWord 9#32 ∧
    IllegalWord 0xFF#32 ∧ IllegalWord 0x4001#32 ∧ IllegalWord 0x102#32 ∧ ¬IllegalWord 0x3F01#32 := by
  refine ⟨rfl, ?_, ?_, ?_, ?_, ?_⟩ <;> unfold IllegalWord <;> decide

/-- For FxmulResult and FxmulRoundsTowardMinusInfinity: the two ends of the shift's range. -/
theorem witness_FxmulShifts : 0 < 64 ∧ 63 < 64 := by decide

theorem witness_FxmulResult :
    0x00004001#32 &&& 0xFF#32 = 0x01#32 ∧ 0x00004001#32 >>> 14 ≠ 0#32 ∧
    (withNext base (cmdWord 0 0x4001#32)).pending = word 0 0x08#8 (.write 0x4001#32) :: [] :=
  ⟨by decide, by decide, rfl⟩

theorem witness_FxmulShiftZeroAndThirtyTwo : base.regs.ov = false := by decide

theorem witness_ScaleResult :
    ¬Configured base ∧ (Configured (sampled 12#5 4096#32) ∧ ¬SampleInRange (sampled 12#5 4096#32)) ∧
    (Configured (sampled 12#5 4095#32) ∧ SampleInRange (sampled 12#5 4095#32)) ∧
    (Configured (sampled 6#5 0#32) ∧ SampleInRange (sampled 6#5 0#32)) ∧
    (Configured (sampled 16#5 65535#32) ∧ SampleInRange (sampled 16#5 65535#32)) := by
  unfold Configured SampleInRange; decide

theorem witness_ScaleStaysBetweenZeroAndVref :
    (Configured (sampled 12#5 4095#32) ∧ SampleInRange (sampled 12#5 4095#32) ∧
      (sampled 12#5 4095#32).regs.raw.toNat = 2 ^ (sampled 12#5 4095#32).regs.res.toNat - 1) ∧
    (Configured (sampled 12#5 0#32) ∧ SampleInRange (sampled 12#5 0#32) ∧ (sampled 12#5 0#32).regs.raw = 0#32) := by
  unfold Configured SampleInRange; decide

theorem witness_ScaleZeroReadingNeedsLargeVref :
    Configured (sampled 16#5 0#32) ∧ SampleInRange (sampled 16#5 0#32) ∧
    2 ^ (sampled 16#5 0#32).regs.res.toNat - 1 ≤ (sampled 16#5 0#32).vref.word.toNat := by
  unfold Configured SampleInRange; decide

theorem witness_ScaleIsMonotone :
    Configured (sampled 12#5 0#32) ∧ (sampled 12#5 0#32).regs.raw.toNat ≤ (4095#32 : Word).toNat ∧
    (4095#32 : Word).toNat < 2 ^ (sampled 12#5 0#32).regs.res.toNat ∧
    overflows (sensor (sampled 12#5 0#32)) = false ∧ overflows (sensor (sampled 12#5 4095#32)) = false := by
  unfold Configured; decide

theorem witness_PolyResult :
    base.regs.csel = false ∧ (withRegs fun g => { g with csel := true }).regs.csel = true := by decide

theorem witness_PolyClampedRange :
    base.regs.csel = false ∧ (withRegs fun g => { g with csel := true }).regs.cclamp = true := by decide

theorem witness_DefaultCurveIgnoresSubstituteBank : base.regs.csel = false := by decide

theorem witness_PolyAtZeroVoltage : base.regs.csel = false ∧ base.regs.v = 0#32 := by decide

theorem witness_TommRoundsTowardZero :
    0 ≤ (10000#32 : Word).toInt ∧ (10000#32 : Word).toInt ≤ 10000 ∧ (0xFFFFFFFF#32 : Word).toInt < 0 := by decide

/-- For ReadumIsScaleThenPoly and ReadmmIsReadumThenTomm: a run that completes, and the two errors. -/
theorem witness_ReadumAndReadmm :
    (Configured (sampled 12#5 4095#32) ∧ SampleInRange (sampled 12#5 4095#32) ∧
      (sampled 12#5 4095#32).regs.csel = false) ∧
    ¬(Configured base ∧ SampleInRange base) ∧
    ¬(Configured (sampled 12#5 4096#32) ∧ SampleInRange (sampled 12#5 4096#32)) := by
  unfold Configured SampleInRange; decide

theorem witness_ReadErrorsArePrecise :
    canFail .scale = true ∧ canFail .readum = true ∧ canFail .readmm = true ∧ ¬Configured base ∧
    Configured (sampled 12#5 4096#32) ∧ ¬SampleInRange (sampled 12#5 4096#32) := by
  unfold Configured SampleInRange; decide

theorem witness_CommandFrame :
    (4 * ((0x03#8 : Offset).toNat / 4) ≠ 4 ∧ 4 * ((0x03#8 : Offset).toNat / 4) ∉ wordsWritten .readmm) ∧
    (4 * ((0xFF#8 : Offset).toNat / 4) ≠ 4 ∧ 4 * ((0xFF#8 : Offset).toNat / 4) ∉ wordsWritten .readmm) ∧
    writesOv .tomm = false ∧ writesClampFlags (.fxmul 16) = false := by decide

theorem witness_OtherCommandsIgnoreTheParameters : canFail .poly = false ∧ canFail (.fxmul 16) = false := by decide

theorem witness_OvIsSticky :
    ∃ t, step (withNext status10503 (cmd 0 .clrst)) = .next t ∧ (withNext status10503 (cmd 0 .clrst)).regs.ov = true ∧
      t.regs.ov = false := ⟨_, rfl, by decide, by decide⟩

theorem witness_ClampFlagsChangeByClampersAlone :
    ∃ t, step (withNext status10503 (cmd 0 .clrst)) = .next t ∧
      (t.regs.clo ≠ (withNext status10503 (cmd 0 .clrst)).regs.clo ∨
        t.regs.chi ≠ (withNext status10503 (cmd 0 .clrst)).regs.chi) := ⟨_, rfl, by decide⟩

theorem witness_ErrChangesByCmdAndCfgWritesAlone :
    (∃ t, step (withNext base (cmdWord 0 9#32)) = .next t ∧ NextWrites (withNext base (cmdWord 0 9#32)) 0x08#8 9#32 ∧
      t.regs.err ≠ (withNext base (cmdWord 0 9#32)).regs.err) ∧
    ∃ t, step (withNext base (wr 0 .cfg 7#32)) = .next t ∧ NextWrites (withNext base (wr 0 .cfg 7#32)) 0x00#8 7#32 :=
  ⟨⟨_, rfl, ⟨0, [], rfl⟩, by decide⟩, _, rfl, 0, [], rfl⟩

theorem witness_ConfigurationLastsUntilReset :
    (∃ t, step (withNext status10503 (cmd 0 .poly)) = .next t) ∧ ¬NextIsPlatform (withNext status10503 (cmd 0 .poly)) ∧
    Configured (withNext status10503 (cmd 0 .poly)) ∧ ∀ w, ¬NextWrites (withNext status10503 (cmd 0 .poly)) 0x00#8 w :=
  ⟨⟨_, rfl⟩, (by rintro ⟨_, h | h⟩ <;> cases h), (by unfold Configured; decide),
    (by rintro w ⟨_, _, h⟩; cases h)⟩

theorem witness_StepKeepsTheInvariant :
    (withNext status10503 (cmd 0 .poly)).Inv ∧ ∃ t, step (withNext status10503 (cmd 0 .poly)) = .next t :=
  ⟨⟨⟨.inr (by decide), by decide, by decide⟩, by decide⟩, _, rfl⟩

/-- For LegalRunsComplete and ReadsDoNotAffectARun. -/
theorem witness_LegalRuns :
    ∀ e ∈ ({ base with pending := [rd 0 .cfg, cmd 1 .poly, .powerLoss, .reset] } : State).pending, e.legal = true := by
  decide

/-- For AssemblerReadsShiftsAndPseudos. -/
theorem witness_AssemblerShifts : 0 < 64 ∧ 63 < 64 := by decide

theorem witness_DriverReadsTheMeasurement :
    (sampled 12#5 4095#32).regs.csel = false ∧ Configured (sampled 12#5 4095#32) ∧
    SampleInRange (sampled 12#5 4095#32) := by
  unfold Configured SampleInRange; decide

/-- A start state other than reset: CFG and RAW written, nothing else. -/
theorem witness_StartStatesAreTheReachableOnes :
    (sampled 12#5 4095#32).Reachable ∧ ∀ x ∈ [(⟨1, .word, 0xFC#8, .read⟩ : Access)], x.legal = true :=
  ⟨⟨[⟨0, .word, 0x00#8, .write 0x20C#32⟩, ⟨0, .word, 0x20#8, .write 4095#32⟩], _, ⟨by decide, rfl⟩, by decide⟩,
    by decide⟩

/-- The result of a run is its registers and its own reads (70_reset_and_hazards.md R174; ADCMAX: 95 W1). -/
theorem test_run_result :
    (match Host.Core.run Sys2Proof.core 2 ((State.resetWith base.vref base.divr).startRun
        [⟨0, .word, 0x00#8, .write 0x20C#32⟩, ⟨5, .word, 0x3C#8, .read⟩]) with
      | .next t => (t.result.1.take 2, t.result.2)
      | .fault _ => ([], [])
      | .refused _ => ([], [])) = ([0x0000020C#32, 0x00010000#32], [⟨5, 0x3C#8, 0x00001000#32⟩]) := by decide

end Sys2Proof.Tests
end

section
/-! PROOFS. The parameters P_VREF and P_DIVR (00_scope.md R9, 41_voltage_scaling.md R102). -/

namespace Sys2Proof

/-- A configuration word is accepted as the parameter that has this word, and as no other. -/
theorem PosQ.ofWord?_eq_some_iff {w : Word} {p : PosQ} : PosQ.ofWord? w = some p ↔ p.word = w := by
  unfold PosQ.ofWord?
  constructor
  · intro h
    split at h
    · cases h; rfl
    · cases h
  · rintro rfl
    rw [dif_pos p.positive]

/-- The words that are refused are those that are not positive (00_scope.md R9). -/
theorem PosQ.ofWord?_eq_none_iff {w : Word} : PosQ.ofWord? w = none ↔ ¬0 < w.toInt := by
  simp [PosQ.ofWord?]

/-- The upper bound of 00_scope.md R9 holds of every word, so positivity is the whole constraint. -/
theorem PosQ.exists_ofWord?_iff (w : Word) :
    (∃ p, PosQ.ofWord? w = some p ∧ p.word = w) ↔ 1 ≤ w.toInt ∧ w.toInt ≤ 2147483647 := by
  constructor
  · rintro ⟨p, -, rfl⟩
    exact ⟨p.positive, (Machine.s32_bounds p.word).2⟩
  · rintro ⟨hpos, -⟩
    exact ⟨⟨w, hpos⟩, PosQ.ofWord?_eq_some_iff.2 rfl, rfl⟩

end Sys2Proof

namespace Sys2Proof.Machine

theorem busWrite_keeps_parameters {s t : State} {off : Offset} {w : Word} (h : s.busWrite off w = .next t) :
    t.vref = s.vref ∧ t.divr = s.divr := by
  obtain ⟨g, hg⟩ := busWrite_next s off w
  cases hg.symm.trans h
  exact ⟨rfl, rfl⟩

/-- The parameters belong to the circuit: neither a host access nor a platform event changes them
(41_voltage_scaling.md R102). -/
theorem step_keeps_parameters {s t : State} (h : step s = .next t) : t.vref = s.vref ∧ t.divr = s.divr := by
  rcases step_cases s with ⟨_, idle⟩ | ⟨_, _, reset⟩ | ⟨_, _, powerLoss⟩ | ⟨_, _, _, _, narrow⟩ |
    ⟨_, _, _, _, _, misaligned⟩ | ⟨_, _, _, _, _, _, read⟩ | ⟨_, rest, _, _, _, _, _, write⟩
  · cases idle.symm.trans h; exact ⟨rfl, rfl⟩
  · cases reset.symm.trans h; exact ⟨rfl, rfl⟩
  · cases powerLoss.symm.trans h; exact ⟨rfl, rfl⟩
  · cases narrow.symm.trans h
  · cases misaligned.symm.trans h
  · cases read.symm.trans h; exact ⟨rfl, rfl⟩
  · exact busWrite_keeps_parameters (s := { s with pending := rest }) (write.symm.trans h)

end Sys2Proof.Machine

/-- Settles O1: positivity decides which words are accepted, and no case of a step touches the parameters. -/
theorem Sys2Proof.parametersLegalAndConstant : Obligations.ParametersLegalAndConstant :=
  ⟨PosQ.exists_ofWord?_iff, fun _ h => PosQ.ofWord?_eq_none_iff.2 h, fun _ _ => Machine.step_keeps_parameters⟩

end

section
/-! PROOFS. A legal command word is the word of its command (30_encoding.md R66, R71). -/

namespace Sys2Proof

theorem fields_of_decodePlain {op : BitVec 8} {i : Instr} (h : decodePlain op = .ok i) :
    i.opcode.toNat = op.toNat ∧ i.shift = 0 := by
  unfold decodePlain at h
  split at h <;> cases h <;> simp_all [Instr.opcode, Instr.shift]

/-- The fields of a legal word: RSV is 0, OP and SH are the command's (30_encoding.md R67). -/
theorem fields_of_decode {w : Word} {i : Instr} (h : decode w = .ok i) :
    rsvField w = 0 ∧ i.opcode.toNat = (opField w).toNat ∧ i.shift = (shField w).toNat := by
  unfold decode at h
  split at h
  · cases h
  · next hrsv =>
    refine ⟨not_not.1 hrsv, ?_⟩
    split at h
    · next hop => cases h; exact ⟨by rw [hop]; rfl, rfl⟩
    · split at h
      · cases h
      · next hsh =>
        rw [not_not.1 hsh]
        exact fields_of_decodePlain h

/-- A legal word is the only word of its command (30_encoding.md R71). -/
theorem encode_of_decode {w : Word} {i : Instr} (h : decode w = .ok i) : encode i = w := by
  obtain ⟨hrsv, hop, hsh⟩ := fields_of_decode h
  have hrsv : w.toNat / 16384 = 0 := by rw [← rsvField_toNat, hrsv]; rfl
  apply BitVec.eq_of_toNat_eq
  rw [encode_toNat, hop, hsh, opField_toNat, shField_toNat]
  omega

end Sys2Proof
end

section
/-! PROOFS. The rounding of a real literal and the default coefficients (10_state.md R31). -/

namespace Sys2Proof.Machine

open Claims

theorem roundHalfAway_natCast (m : Nat) {d : Nat} (hd : 0 < d) :
    roundHalfAway m d = ((2 * m + d) / (2 * d) : Nat) := by
  cases m with
  | zero =>
    have : d / (2 * d) = 0 := Nat.div_eq_of_lt (by omega)
    simp [roundHalfAway, this]
  | succ m =>
    rw [roundHalfAway, Int.sign_eq_one_of_pos (by omega), one_mul, Int.natAbs_natCast]

theorem roundHalfAway_neg (n : Int) (d : Nat) : roundHalfAway (-n) d = -roundHalfAway n d := by
  simp [roundHalfAway]

/-- The rounded quotient of a magnitude lies in the half-open unit around it, closed above, where the tie is. -/
theorem roundHalfAway_natCast_bounds (m : Nat) {d : Nat} (hd : 0 < d) :
    0 ≤ roundHalfAway m d * d ∧ 2 * (roundHalfAway m d * d) ≤ 2 * m + d ∧
      2 * (m : Int) < 2 * (roundHalfAway m d * d) + d := by
  rw [roundHalfAway_natCast m hd]
  have hle := Nat.div_mul_le_self (2 * m + d) (2 * d)
  have hlt := Nat.lt_div_mul_add (a := 2 * m + d) (b := 2 * d) (by omega)
  set q := (2 * m + d) / (2 * d)
  have hq : q * (2 * d) = 2 * (q * d) := by ring
  rw [hq] at hle hlt
  refine ⟨by positivity, ?_, ?_⟩
  · exact_mod_cast hle
  · have : 2 * m < 2 * (q * d) + d := by omega
    exact_mod_cast this

/-- Settles O3: on a magnitude by the two bounds of the division, on a negative literal by symmetry. -/
theorem literalRoundingIsNearestTiesAway : Obligations.LiteralRoundingIsNearestTiesAway := by
  intro n d hd
  obtain ⟨m, rfl | rfl⟩ := n.eq_nat_or_neg
  all_goals
    obtain ⟨h0, hle, hlt⟩ := roundHalfAway_natCast_bounds m hd
    simp only [abs_eq_max_neg, roundHalfAway_neg, neg_mul]
    generalize roundHalfAway m d * d = p at *
    omega

/-- Settles O2: the constants are the roundings of R31. -/
theorem defaultCoefficientsEncodeTheReals : Obligations.DefaultCoefficientsEncodeTheReals := by
  have h0 : qLiteral (-9188) 10000 = defaultB0 := by decide
  have h1 : qLiteral 18001 10000 = defaultB1 := by decide
  have h2 : qLiteral (-2552) 10000 = defaultB2 := by decide
  have h3 : qLiteral 165 10000 = defaultB3 := by decide
  exact fun s => ⟨h0.symm, h0, h1.symm, h1, h2.symm, h2, h3.symm, h3⟩

end Sys2Proof.Machine
end

section
/-! PROOFS. The register map: reserved offsets, read-only registers, what reset reads as (10_state.md R18, R36, R39). -/

namespace Sys2Proof.Machine

open Claims

/-- Offsets from 0x6C up hold no register (10_state.md R18). -/
theorem regAt_of_reserved {off : Offset} (h : 0x6C ≤ off.toNat) : regAt off = none := by
  cases hx : regAt off with
  | none => rfl
  | some x =>
    have hlt : x.offset.toNat < 0x6C := by cases x <;> decide
    rw [offset_of_regAt hx] at hlt
    omega

theorem busRead_of_reserved (s : State) {off : Offset} (h : 0x6C ≤ off.toNat) : s.busRead off = 0#32 := by
  simp [State.busRead, regAt_of_reserved h]

theorem busWrite_of_reserved (s : State) {off : Offset} (h : 0x6C ≤ off.toNat) (w : Word) :
    s.busWrite off w = .next s := by
  simp [State.busWrite, regAt_of_reserved h]

theorem writeReg_of_readOnly (s : State) {x : Reg} (h : x ∈ readOnly) (w : Word) : s.writeReg x w = .next s := by
  fin_cases h <;> rfl

/-- Settles O11: a read-only register's write is ignored, and no register stands at a reserved offset. -/
theorem readOnlyAndReservedWritesAreIgnored : Obligations.ReadOnlyAndReservedWritesAreIgnored := by
  refine ⟨fun s ctx off w rest hoff hp => ?_, fun s off => busRead_of_reserved s⟩
  obtain ⟨x, hx, rfl⟩ | ⟨hres, hal⟩ := hoff
  · exact (step_wr hp).trans (writeReg_of_readOnly _ hx w)
  · exact (step_write hal hp).trans (busWrite_of_reserved _ hres w)

/-- Settles O4: register by register, and the reserved offsets by their rule. -/
theorem resetRegisterValues : Obligations.ResetRegisterValues := by
  intro k hk
  by_cases hreg : k < 27
  · interval_cases k <;> rfl
  · rw [busRead_of_reserved _ (by rw [BitVec.toNat_ofNat]; omega)]
    repeat rw [if_neg (by omega)]

end Sys2Proof.Machine
end

section
/-! PROOFS. The frame of a command, and what it depends on (10_state.md R40). -/

namespace Sys2Proof.Machine

open Claims

@[simp] theorem cmdRegs_res (i : Instr) (s : State) : (cmdRegs i s).res = s.regs.res := by
  cases i <;> simp [cmdRegs]
@[simp] theorem cmdRegs_csel (i : Instr) (s : State) : (cmdRegs i s).csel = s.regs.csel := by
  cases i <;> simp [cmdRegs]
@[simp] theorem cmdRegs_cclamp (i : Instr) (s : State) : (cmdRegs i s).cclamp = s.regs.cclamp := by
  cases i <;> simp [cmdRegs]

theorem cmdRegs_ov_of_not_writesOv {i : Instr} (h : writesOv i = false) (s : State) :
    (cmdRegs i s).ov = s.regs.ov := by
  cases i <;> simp_all [cmdRegs, writesOv]

theorem cmdRegs_clampFlags_of_not_writes {i : Instr} (h : writesClampFlags i = false) (s : State) :
    (cmdRegs i s).clo = s.regs.clo ∧ (cmdRegs i s).chi = s.regs.chi := by
  cases i <;> simp_all [cmdRegs, writesClampFlags]

/-- ERR is read in STATUS alone. -/
theorem readReg_setErr (s : State) (e : BitVec 4) {x : Reg} (hx : x ≠ .status) :
    ({ s with regs := { s.regs with err := e } } : State).readReg x = s.readReg x := by
  cases x with
  | status => exact absurd rfl hx
  | _ => rfl

/-- A completed command leaves every register as it reads, but STATUS and those it writes. -/
theorem readReg_cmdRegs {i : Instr} (s : State) {x : Reg} (hx : x ≠ .status) (hw : x.offset.toNat ∉ wordsWritten i) :
    ({ s with regs := cmdRegs i s } : State).readReg x = s.readReg x := by
  cases x with
  | status => exact absurd rfl hx
  | cmd | vref | divr | maxum | db0 | db1 | db2 | db3 => rfl
  | cfg => simp [State.readReg, Regs.cfgWord]
  | adcmax => simp [State.readReg, adcMax_congr (cmdRegs_res i s)]
  | a | b | raw | cb0 | cb1 | cb2 | cb3 => cases i <;> simp [State.readReg, cmdRegs]
  | r | plo | phi | vpin | v | fmm | umr | um | mm =>
    cases i <;> simp_all [State.readReg, cmdRegs, wordsWritten, Reg.offset]

/-- A completed or failed command leaves every register as it reads, but STATUS and those it writes. -/
theorem exec_keeps_readReg {i : Instr} {s t : State} (h : exec i s = .next t) {x : Reg} (hx : x ≠ .status)
    (hw : x.offset.toNat ∉ wordsWritten i) : t.readReg x = s.readReg x := by
  rcases exec_cases i s with ⟨_, _, e⟩ | ⟨_, _, _, e⟩ | ⟨_, e⟩ <;> cases e.symm.trans h
  · exact readReg_setErr s _ hx
  · exact readReg_setErr s _ hx
  · exact (readReg_setErr { s with regs := cmdRegs i s } _ hx).trans (readReg_cmdRegs s hx hw)

/-- The byte view reads the aligned word around the byte (20_memory.md R49). -/
theorem windowByte_congr {s t : State} {off : Offset}
    (h : ∀ x : Reg, x.offset.toNat = 4 * (off.toNat / 4) → t.readReg x = s.readReg x) :
    t.windowByte off = s.windowByte off := by
  have hread : t.busRead (BitVec.ofNat 8 (off.toNat - off.toNat % 4)) =
      s.busRead (BitVec.ofNat 8 (off.toNat - off.toNat % 4)) := by
    unfold State.busRead
    cases hx : regAt (BitVec.ofNat 8 (off.toNat - off.toNat % 4)) with
    | none => rfl
    | some x =>
      refine h x ?_
      rw [offset_of_regAt hx, BitVec.toNat_ofNat]
      omega
  rw [State.windowByte, State.windowByte, hread]

/-- Settles O47: the window by the registers' frame, the flags and CFG field by field in each outcome. -/
theorem commandFrame : Obligations.CommandFrame := by
  intro i s
  obtain ⟨g, hg⟩ := exec_next i s
  refine ⟨_, hg, fun off hstatus hw => windowByte_congr fun x hx => ?_, ?_⟩
  · refine exec_keeps_readReg hg ?_ (hx ▸ hw)
    rintro rfl
    exact hstatus hx.symm
  · rcases exec_cases i s with ⟨_, _, e⟩ | ⟨_, _, _, e⟩ | ⟨_, e⟩ <;> cases e.symm.trans hg
    · simp
    · simp
    · simp +contextual [cmdRegs_ov_of_not_writesOv, cmdRegs_clampFlags_of_not_writes]

/-- The commands that can fail are those that scale (60_exceptions.md R143). -/
theorem canFail_eq_scales (i : Instr) : canFail i = scales i := by cases i <;> rfl

theorem exec_of_not_scales {i : Instr} (h : scales i = false) (s : State) :
    exec i s = .next { s with regs := { cmdRegs i s with err := 0#4 } } := by
  rcases exec_cases i s with ⟨hs, _⟩ | ⟨hs, _⟩ | ⟨_, e⟩
  · cases h.symm.trans hs
  · cases h.symm.trans hs
  · exact e

/-- Settles O49: a command that does not scale always completes, and its registers name no parameter. -/
theorem otherCommandsIgnoreTheParameters : Obligations.OtherCommandsIgnoreTheParameters := by
  intro i s p q h
  rw [canFail_eq_scales] at h
  refine ⟨_, exec_of_not_scales h s, (exec_of_not_scales h _).trans ?_⟩
  have hregs : cmdRegs i { s with vref := p, divr := q } = cmdRegs i s := by
    cases i with
    | scale | readum | readmm => cases h
    | _ => rfl
  rw [hregs]

end Sys2Proof.Machine
end

section
/-! PROOFS. Host writes to CFG, STATUS and CMD (10_state.md R20, R26, R27). -/

namespace Sys2Proof.Machine

open Claims

theorem writeCfg_of_legal (s : State) {w : Word} (h : legalRes (w.extractLsb' 0 5) = true) :
    s.writeCfg w = { s with regs := { s.regs with
      res := w.extractLsb' 0 5, csel := w.getLsbD 8, cclamp := w.getLsbD 9, err := 0#4 } } := by
  simp only [State.writeCfg, h, if_true]
  rfl

theorem writeCfg_of_illegal (s : State) {w : Word} (h : legalRes (w.extractLsb' 0 5) = false) :
    s.writeCfg w = withErr s 1#4 := by
  simp only [State.writeCfg, h, Bool.false_eq_true, if_false]
  rfl

theorem writeStatus_eq (s : State) (w : Word) :
    s.writeStatus w = { s with regs := { s.regs with ov := s.regs.ov && !w.getLsbD 8 } } := by
  unfold State.writeStatus
  cases w.getLsbD 8 with
  | true => simp [State.mapRegs, Regs.clearOv]
  | false => simp

section

variable {s : State} {ctx : Nat} {w : Word} {rest : List Event}

theorem step_cfgWrite (h : s.pending = word ctx 0x00#8 (.write w) :: rest) :
    step s = .next (({ s with pending := rest } : State).writeCfg w) := step_wr (x := .cfg) h

theorem step_statusWrite (h : s.pending = word ctx 0x04#8 (.write w) :: rest) :
    step s = .next (({ s with pending := rest } : State).writeStatus w) := step_wr (x := .status) h

theorem step_cmdWrite (h : s.pending = word ctx 0x08#8 (.write w) :: rest) :
    step s = executeWord w { s with pending := rest } := step_wr (x := .cmd) h

end

/-- Settles O13: the two cases of bit 8 as one expression. -/
theorem statusWriteClearsOvAlone : Obligations.StatusWriteClearsOvAlone := by
  intro s ctx w rest hp
  rw [step_statusWrite hp, writeStatus_eq]

/-- Settles O22: the CMD write is Execute(w), which runs the command that w decodes to. -/
theorem stepRunsTheDecodedCommand : Obligations.StepRunsTheDecodedCommand := by
  intro s ctx w i rest hw hp
  rw [step_cmdWrite hp]
  simp only [executeWord, hw]

theorem legalRes_iff_mem (res : BitVec 5) : legalRes res = true ↔ res.toNat ∈ [6, 8, 10, 12, 14, 16] := by
  simp [legalRes_iff]

theorem configured_iff (s : State) : Configured s ↔ legalRes s.regs.res = true := (legalRes_iff_mem _).symm

/-- RES of a CFG word as a number (10_state.md R19). -/
theorem resField_eq (w : Word) : w.extractLsb' 0 5 = BitVec.ofNat 5 (w.toNat % 32) := by
  apply BitVec.eq_of_toNat_eq
  simp

/-- RES of a CFG word is legal when its number is (00_scope.md R8). -/
theorem legalRes_resField_iff (w : Word) :
    legalRes (w.extractLsb' 0 5) = true ↔ w.toNat % 32 ∈ [6, 8, 10, 12, 14, 16] := by
  rw [legalRes_iff_mem]
  simp

theorem toNat_getLsbD (w : Word) (k : Nat) : (w.getLsbD k).toNat = w.toNat / 2 ^ k % 2 :=
  Nat.toNat_testBit w.toNat k

/-- CFG reads as the fields of the word that was written (10_state.md R19). -/
theorem cfgWord_of_fields (g : Regs) (w : Word) (hres : g.res = w.extractLsb' 0 5) (hcsel : g.csel = w.getLsbD 8)
    (hcclamp : g.cclamp = w.getLsbD 9) :
    g.cfgWord = BitVec.ofNat 32 (w.toNat % 32 + 256 * (w.toNat / 256 % 4)) := by
  apply BitVec.eq_of_toNat_eq
  rw [cfgWord_toNat, hres, hcsel, hcclamp, toNat_getLsbD, toNat_getLsbD]
  simp only [BitVec.extractLsb'_toNat, BitVec.toNat_ofNat, Nat.shiftRight_zero]
  omega

/-- ADCMAX reads 2^RES once a legal RES was written (10_state.md R34). -/
theorem adcMax_of_resField (g : Regs) {w : Word} (hres : g.res = w.extractLsb' 0 5) (hleg : legalRes g.res = true) :
    BitVec.ofNat 32 g.adcMax = 1#32 <<< (w.toNat % 32) := by
  have hnat : g.res.toNat = w.toNat % 32 := by simp [hres]
  rw [(adcMax_of_cfgv hleg).1, hnat]
  apply BitVec.eq_of_toNat_eq
  simp [Nat.shiftLeft_eq]

/-- Settles O12: the write by its two cases, and CFG and ADCMAX as they read after a legal one. -/
theorem cfgWriteIsValidatedAsAWhole : Obligations.CfgWriteIsValidatedAsAWhole := by
  intro s ctx w rest hp
  rw [← legalRes_resField_iff, Bool.not_eq_true, step_cfgWrite hp]
  refine ⟨fun hill => by rw [writeCfg_of_illegal _ hill]; rfl, fun hleg => ?_⟩
  rw [writeCfg_of_legal _ hleg]
  exact ⟨by rw [resField_eq], _, rfl, cfgWord_of_fields _ w rfl rfl rfl, adcMax_of_resField _ rfl hleg⟩

end Sys2Proof.Machine
end

section
/-! PROOFS. What one step can leave in the registers (20_memory.md R53-R55, 10_state.md R20-R27). -/

namespace Sys2Proof.Machine

open Claims

/-- The fields of CFG and STATUS, which the rules of 10_state.md R20 to R26 speak of, are the same. -/
structure Regs.SameControl (g k : Regs) : Prop where
  res : g.res = k.res
  csel : g.csel = k.csel
  cclamp : g.cclamp = k.cclamp
  err : g.err = k.err
  ov : g.ov = k.ov
  clo : g.clo = k.clo
  chi : g.chi = k.chi

theorem Regs.SameControl.refl (g : Regs) : g.SameControl g := ⟨rfl, rfl, rfl, rfl, rfl, rfl, rfl⟩

/-- The registers a step leaves, by the event it took: what R20 to R26 of 10_state.md let change CFG and STATUS.
The last case is a step on no event, a read, an operand write or an ignored write. -/
inductive StepEffect (s : State) : Regs → Prop
  | reset {rest : List Event} (hp : s.pending = .reset :: rest) : StepEffect s Regs.reset
  | powerLoss {rest : List Event} (hp : s.pending = .powerLoss :: rest) :
    StepEffect s (powerLossRegs s.powerLosses)
  | cfgAccepted {w : Word} (hp : NextWrites s 0x00#8 w) (hleg : legalRes (w.extractLsb' 0 5) = true) :
    StepEffect s { s.regs with
      res := w.extractLsb' 0 5, csel := w.getLsbD 8, cclamp := w.getLsbD 9, err := ErrCode.ok.code }
  | cfgRejected {w : Word} (hp : NextWrites s 0x00#8 w) : StepEffect s { s.regs with err := ErrCode.ecfg.code }
  | statusWrite {w : Word} (hp : NextWrites s 0x04#8 w) :
    StepEffect s { s.regs with ov := s.regs.ov && !w.getLsbD 8 }
  | completed {i : Instr} (hp : NextWrites s 0x08#8 (encode i)) :
    StepEffect s { cmdRegs i s with err := ErrCode.ok.code }
  | raised {w : Word} {c : ErrCode} (hp : NextWrites s 0x08#8 w) (hc : c ∈ [ErrCode.enocfg, .erange, .eill]) :
    StepEffect s { s.regs with err := c.code }
  | other {g : Regs} (hg : g.SameControl s.regs) : StepEffect s g

/-- A CMD write completes the command of its word, or raises one of three errors (30_encoding.md R72,
60_exceptions.md R143). -/
theorem executeWord_regs_cases {w : Word} {s t : State} (h : executeWord w s = .next t) :
    (∃ i, encode i = w ∧ t.regs = { cmdRegs i s with err := ErrCode.ok.code }) ∨
    ∃ c ∈ [ErrCode.enocfg, .erange, .eill], t.regs = { s.regs with err := c.code } := by
  rcases executeWord_cases w s with ⟨i, hw, e⟩ | ⟨_, _, e⟩
  · rcases exec_cases i s with ⟨_, _, e'⟩ | ⟨_, _, _, e'⟩ | ⟨_, e'⟩ <;> cases (e.trans e').symm.trans h
    · exact .inr ⟨.enocfg, by decide, rfl⟩
    · exact .inr ⟨.erange, by decide, rfl⟩
    · exact .inl ⟨i, encode_of_decode hw, rfl⟩
  · cases e.symm.trans h
    exact .inr ⟨.eill, by decide, rfl⟩

/-- What a command writes does not depend on the events to come. -/
theorem cmdRegs_pending (i : Instr) (s : State) (rest : List Event) :
    cmdRegs i { s with pending := rest } = cmdRegs i s := by cases i <;> rfl

/-- The host's writes, register by register (20_memory.md R54). -/
theorem writeReg_effect {s t : State} {ctx : Nat} {x : Reg} {w : Word} {rest : List Event}
    (hp : s.pending = wr ctx x w :: rest) (h : ({ s with pending := rest } : State).writeReg x w = .next t) :
    StepEffect s t.regs := by
  have hw : NextWrites s x.offset w := ⟨ctx, rest, hp⟩
  cases x with
  | cfg =>
    cases h
    cases hleg : legalRes (w.extractLsb' 0 5) with
    | true => rw [writeCfg_of_legal _ hleg]; exact .cfgAccepted hw hleg
    | false => rw [writeCfg_of_illegal _ hleg]; exact .cfgRejected hw
  | status => cases h; rw [writeStatus_eq]; exact .statusWrite hw
  | cmd =>
    rcases executeWord_regs_cases h with ⟨i, rfl, e⟩ | ⟨c, hc, e⟩ <;> rw [e]
    · rw [cmdRegs_pending]; exact .completed hw
    · exact .raised hw hc
  | _ => cases h; exact .other ⟨rfl, rfl, rfl, rfl, rfl, rfl, rfl⟩

/-- Every step that answers a next state is one of these effects (20_memory.md R53, R54, R55). -/
theorem step_effect {s t : State} (h : step s = .next t) : StepEffect s t.regs := by
  rcases step_cases s with ⟨_, idle⟩ | ⟨_, hp, reset⟩ | ⟨_, hp, powerLoss⟩ | ⟨_, _, _, _, narrow⟩ |
    ⟨_, _, _, _, _, misaligned⟩ | ⟨_, _, _, _, _, _, read⟩ | ⟨⟨ctx, _, off, _⟩, rest, w, hp, rfl, _, rfl, write⟩
  · cases idle.symm.trans h; exact .other (.refl _)
  · cases reset.symm.trans h; exact .reset hp
  · cases powerLoss.symm.trans h; exact .powerLoss hp
  · cases narrow.symm.trans h
  · cases misaligned.symm.trans h
  · cases read.symm.trans h; exact .other (.refl _)
  · replace write := write.symm.trans h
    unfold State.busWrite at write
    cases hx : regAt off with
    | none =>
      rw [hx] at write
      cases write
      exact .other (.refl _)
    | some x =>
      rw [hx] at write
      cases offset_of_regAt hx
      exact writeReg_effect hp write

/-- A step takes the first event and leaves the rest (20_memory.md R55). -/
theorem step_pending {s t : State} (h : step s = .next t) : t.pending = s.pending.tail := by
  rcases step_cases s with ⟨hp, idle⟩ | ⟨_, hp, reset⟩ | ⟨_, hp, powerLoss⟩ | ⟨_, _, _, _, narrow⟩ |
    ⟨_, _, _, _, _, misaligned⟩ | ⟨_, _, hp, _, _, _, read⟩ | ⟨x, rest, w, hp, _, _, _, write⟩
  · cases idle.symm.trans h; simp [hp]
  · cases reset.symm.trans h; simp [hp]
  · cases powerLoss.symm.trans h; simp [hp]
  · cases narrow.symm.trans h
  · cases misaligned.symm.trans h
  · cases read.symm.trans h; simp [hp]
  · obtain ⟨g, hg⟩ := busWrite_next { s with pending := rest } x.off w
    cases (write.trans hg).symm.trans h
    simp [hp]

end Sys2Proof.Machine
end

section
/-! PROOFS. The invariant, and which events change the fields of CFG and STATUS (10_state.md R20-R25). -/

namespace Sys2Proof.Machine

open Claims

/-- Only CLRST clears OV. -/
theorem cmdRegs_ov_of_ov {i : Instr} (hi : i ≠ .clrst) {s : State} (h : s.regs.ov = true) :
    (cmdRegs i s).ov = true := by
  cases i with
  | clrst => exact absurd rfl hi
  | _ => simp [cmdRegs, Regs.scaled, h]

/-- A value is not below 0 and above 10000 at once, so no command raises both clamp flags. -/
theorem cmdRegs_not_clo_and_chi (i : Instr) {s : State} (h : ¬(s.regs.clo = true ∧ s.regs.chi = true)) :
    ¬((cmdRegs i s).clo = true ∧ (cmdRegs i s).chi = true) := by
  have excl (u : Int) : u < 0 → ¬maxUm < u := by
    unfold maxUm
    omega
  cases i with
  | nop | fxmul | scale | tomm => exact h
  | clrst => simp [cmdRegs]
  | clamp => simpa [cmdRegs] using excl _
  | poly | readum | readmm =>
    simp only [cmdRegs, Regs.toMm_clo, Regs.toMm_chi, Regs.evalCurve_clo, Regs.evalCurve_chi, Bool.and_eq_true,
      decide_eq_true_eq]
    rintro ⟨⟨_, hlow⟩, _, hhigh⟩
    exact excl _ hlow hhigh

theorem code_le (c : ErrCode) : c.code.toNat ≤ 4 := by cases c <;> decide

theorem Regs.wf_reset : Regs.reset.Wf := ⟨.inl rfl, by decide, by decide⟩

/-- Settles O54: the reset registers are well formed, and nothing is pending at reset. -/
theorem invariantHoldsAfterReset : Obligations.InvariantHoldsAfterReset :=
  ⟨Regs.wf_reset, List.not_mem_nil⟩

/-- Each effect keeps the facts about the registers, but a power loss, which is not pending. -/
theorem StepEffect.wf {s : State} {g : Regs} (h : StepEffect s g) (hinv : s.Inv) : g.Wf := by
  obtain ⟨⟨hres, hflags, herr⟩, hpower⟩ := hinv
  cases h with
  | reset => exact Regs.wf_reset
  | powerLoss hp => exact absurd (by rw [hp]; exact List.mem_cons_self) hpower
  | cfgAccepted _ hleg => exact ⟨.inr hleg, hflags, code_le .ok⟩
  | cfgRejected => exact ⟨hres, hflags, code_le .ecfg⟩
  | statusWrite => exact ⟨hres, hflags, herr⟩
  | @completed i =>
    exact ⟨by simpa using hres, cmdRegs_not_clo_and_chi i hflags, code_le .ok⟩
  | @raised _ c => exact ⟨hres, hflags, code_le c⟩
  | other hg => exact ⟨hg.res ▸ hres, by rw [hg.clo, hg.chi]; exact hflags, hg.err ▸ herr⟩

/-- Settles O55: the registers by the effect of the step; no power loss comes that was not pending. -/
theorem stepKeepsTheInvariant : Obligations.StepKeepsTheInvariant := by
  intro s t hinv h
  refine ⟨(step_effect h).wf hinv, fun hmem => hinv.2 ?_⟩
  rw [step_pending h] at hmem
  exact List.mem_of_mem_tail hmem

/-- Settles O50: a completed CLRST and a STATUS write with bit 8 are the host's only ways to clear OV. -/
theorem ovIsSticky : Obligations.OvIsSticky := by
  intro s t h hset hclear
  have heff := step_effect h
  generalize t.regs = g at heff hclear
  cases heff with
  | reset hp => exact .inr (.inr ⟨_, .inl hp⟩)
  | powerLoss hp => exact .inr (.inr ⟨_, .inr hp⟩)
  | cfgAccepted | cfgRejected | raised => cases hset.symm.trans hclear
  | @statusWrite w hp => exact .inr (.inl ⟨w, by simpa [hset] using hclear, hp⟩)
  | @completed i hp =>
    by_cases hi : i = .clrst
    · subst hi; exact .inl hp
    · cases (cmdRegs_ov_of_ov hi hset).symm.trans hclear
  | other hg => cases (hg.ov.trans hset).symm.trans hclear

/-- The words of the commands that write the clamp flags (30_encoding.md R71). -/
theorem encode_mem_of_writesClampFlags {i : Instr} (h : writesClampFlags i = true) :
    encode i ∈ [0x00000003#32, 0x00000004#32, 0x00000006#32, 0x00000007#32, 0x00000008#32] := by
  cases i with
  | nop | fxmul | scale | tomm => cases h
  | poly | clamp | readum | readmm | clrst => decide

/-- Settles O51: the host changes the flags by a completed command that writes them, and by nothing else. -/
theorem clampFlagsChangeByClampersAlone : Obligations.ClampFlagsChangeByClampersAlone := by
  intro s t h hne
  have heff := step_effect h
  generalize t.regs = g at heff hne
  cases heff with
  | reset hp => exact .inr ⟨_, .inl hp⟩
  | powerLoss hp => exact .inr ⟨_, .inr hp⟩
  | cfgAccepted | cfgRejected | statusWrite | raised => simp at hne
  | @completed i hp =>
    cases hi : writesClampFlags i with
    | true => exact .inl ⟨_, encode_mem_of_writesClampFlags hi, hp⟩
    | false => simp [cmdRegs_clampFlags_of_not_writes hi] at hne
  | other hg => simp [hg.clo, hg.chi] at hne

/-- Settles O52: the codes by the outcomes of Execute(w) and of the CFG write, the rest by the effect of the step. -/
theorem errChangesByCmdAndCfgWritesAlone : Obligations.ErrChangesByCmdAndCfgWritesAlone := by
  intro s t h
  refine ⟨fun w ⟨ctx, rest, hp⟩ => ?_, fun w ⟨ctx, rest, hp⟩ => ?_, fun hne => ?_⟩
  · rw [step_cmdWrite hp] at h
    rcases executeWord_regs_cases h with ⟨_, _, e⟩ | ⟨c, hc, e⟩ <;> rw [e]
    · simp [ErrCode.code]
    · fin_cases hc <;> simp [ErrCode.code]
  · cases (step_cfgWrite hp).symm.trans h
    cases hleg : legalRes (w.extractLsb' 0 5) with
    | true => simp [writeCfg_of_legal _ hleg]
    | false => simp [writeCfg_of_illegal _ hleg, withErr]
  · have heff := step_effect h
    generalize t.regs = g at heff hne
    cases heff with
    | reset hp => exact .inr ⟨_, .inl hp⟩
    | powerLoss hp => exact .inr ⟨_, .inr hp⟩
    | cfgAccepted hp | cfgRejected hp => exact .inl ⟨_, .inr hp⟩
    | completed hp | raised hp => exact .inl ⟨_, .inl hp⟩
    | statusWrite => exact absurd rfl hne
    | other hg => exact absurd hg.err hne

/-- Settles O53: CFG is replaced by a legal configuration, or it stays. -/
theorem configurationLastsUntilReset : Obligations.ConfigurationLastsUntilReset := by
  intro s t h hhost
  rw [configured_iff, configured_iff]
  have heff := step_effect h
  generalize t.regs = g at heff ⊢
  cases heff with
  | reset hp => exact absurd ⟨_, .inl hp⟩ hhost
  | powerLoss hp => exact absurd ⟨_, .inr hp⟩ hhost
  | cfgAccepted hp hleg => exact ⟨fun _ => hleg, fun hno => absurd hp (hno _)⟩
  | cfgRejected | statusWrite | raised => exact ⟨id, fun _ => ⟨rfl, rfl, rfl⟩⟩
  | completed => simp
  | other hg => exact ⟨fun hc => hg.res ▸ hc, fun _ => ⟨hg.res, hg.csel, hg.cclamp⟩⟩

end Sys2Proof.Machine
end

section
/-! PROOFS. The access that is taken, the window's place and its bytes (20_memory.md R46, R48, R49). -/

namespace Sys2Proof.Machine

open Claims

theorem step_eq_perform {s : State} {x : Access} {rest : List Event} (h : s.pending = .access x :: rest) :
    step s = ({ s with pending := rest } : State).perform x := by
  simp only [step, h, State.handle]

theorem perform_of_narrow (s : State) {x : Access} (h : x.width = .byte ∨ x.width = .half) :
    s.perform x = .refused .narrowAccess := by
  rcases h with h | h <;> simp only [State.perform, h]

theorem perform_of_misaligned (s : State) {x : Access} (hw : x.width = .word) (ha : x.off.toNat % 4 ≠ 0) :
    s.perform x = .refused .misalignedAccess := by
  simp only [State.perform, hw, if_neg ha]

/-- Settles O9: the step on an access is the access, and each of the two kinds is refused under its name. -/
theorem narrowOrMisalignedAccessIsRefused : Obligations.NarrowOrMisalignedAccessIsRefused := by
  intro s x rest hp
  rw [step_eq_perform hp]
  exact ⟨perform_of_narrow _, perform_of_misaligned _⟩

theorem windowOffset?_of_inside (base : Nat) (off : Offset) : windowOffset? base (base + off.toNat) = some off := by
  have hoff : base ≤ base + off.toNat ∧ base + off.toNat < base + 256 := by omega
  rw [windowOffset?, if_pos hoff, Nat.add_sub_cancel_left, BitVec.ofNat_toNat, BitVec.setWidth_eq]

theorem windowOffset?_of_outside {base addr : Nat} (h : addr < base ∨ base + 256 ≤ addr) :
    windowOffset? base addr = none :=
  if_neg (by omega)

/-- Settles O14: the base is a multiple of 256 by its form, and the rest holds of every base. -/
theorem windowIs256BytesFromItsBase : Obligations.WindowIs256BytesFromItsBase :=
  ⟨Dvd.intro _ rfl, windowOffset?_of_inside _, fun _ => windowOffset?_of_outside⟩

theorem byteLane_toNat (w : Word) (i : Nat) : (byteLane w i).toNat = w.toNat / 2 ^ (8 * i) % 256 := by
  simp [byteLane, Nat.shiftRight_eq_div_pow]

/-- A word is its four bytes, the least significant one first (20_memory.md R49). -/
theorem byteLanes_append (w : Word) :
    w = (byteLane w 3 ++ (byteLane w 2 ++ (byteLane w 1 ++ byteLane w 0)) : BitVec (8 + (8 + (8 + 8)))) := by
  apply BitVec.eq_of_toNat_eq
  have hw := w.isLt
  simp only [toNat_append_eq, byteLane_toNat]
  omega

/-- Byte 4k + i of the window is byte lane i of the word at 4k (20_memory.md R49). -/
theorem windowByte_eq_byteLane (s : State) {k i : Nat} (hk : k < 64) (hi : i < 4) :
    s.windowByte (BitVec.ofNat 8 (4 * k + i)) = byteLane (s.busRead (BitVec.ofNat 8 (4 * k))) i := by
  have hoff : (BitVec.ofNat 8 (4 * k + i)).toNat = 4 * k + i := by rw [BitVec.toNat_ofNat]; omega
  have hlane : (4 * k + i) % 4 = i := by omega
  rw [State.windowByte, hoff, hlane, Nat.add_sub_cancel]

/-- Settles O8: a byte of the window is a byte lane, and a word is its byte lanes. -/
theorem windowBytesAreLittleEndian : Obligations.WindowBytesAreLittleEndian := by
  intro s k i hk hi
  refine ⟨windowByte_eq_byteLane s hk hi, ?_⟩
  have h0 := windowByte_eq_byteLane s hk (i := 0) (by decide)
  rw [Nat.add_zero] at h0
  rw [windowByte_eq_byteLane s hk (i := 3) (by decide), windowByte_eq_byteLane s hk (i := 2) (by decide),
    windowByte_eq_byteLane s hk (i := 1) (by decide), h0]
  exact byteLanes_append _

end Sys2Proof.Machine
end

section
/-! PROOFS. What a read returns and what an operand write stores (20_memory.md R53, R54). -/

namespace Sys2Proof.Machine

open Claims

theorem cfgWord_eq_ofNat (g : Regs) :
    g.cfgWord = BitVec.ofNat 32 (g.res.toNat + 256 * g.csel.toNat + 512 * g.cclamp.toNat) := by
  rw [← cfgWord_toNat, BitVec.ofNat_toNat, BitVec.setWidth_eq]

/-- CFGV is the membership in the six resolutions that the table writes (10_state.md R25). -/
theorem cfgv_eq_decide (g : Regs) : g.cfgv = decide (g.res.toNat ∈ [6, 8, 10, 12, 14, 16]) := by
  rw [Bool.eq_iff_iff, decide_eq_true_iff]
  exact legalRes_iff_mem g.res

theorem statusWord_eq_ofNat (g : Regs) :
    g.statusWord = BitVec.ofNat 32 (g.err.toNat + 256 * g.ov.toNat + 512 * g.clo.toNat + 1024 * g.chi.toNat +
      65536 * (decide (g.res.toNat ∈ [6, 8, 10, 12, 14, 16])).toNat) := by
  rw [← cfgv_eq_decide, ← statusWord_toNat, BitVec.ofNat_toNat, BitVec.setWidth_eq]

/-- ADCMAX reads as a 1 shifted by the resolution (10_state.md R34). -/
theorem adcMax_eq_shiftLeft (g : Regs) :
    BitVec.ofNat 32 g.adcMax =
      if decide (g.res.toNat ∈ [6, 8, 10, 12, 14, 16]) then 1#32 <<< g.res.toNat else 0#32 := by
  rw [← cfgv_eq_decide, Regs.adcMax]
  split
  · apply BitVec.eq_of_toNat_eq
    simp [Nat.shiftLeft_eq]
  · rfl

/-- Each register reads as the table of 20_memory.md R53 says. -/
theorem readReg_eq_readValue (s : State) (x : Reg) : s.readReg x = readValue s x.offset := by
  cases x with
  | cfg => exact cfgWord_eq_ofNat s.regs
  | status => exact statusWord_eq_ofNat s.regs
  | adcmax => exact adcMax_eq_shiftLeft s.regs
  | _ => rfl

/-- Each row of the table is at a register's offset, so an offset without a register reads 0 (10_state.md R36). -/
theorem readValue_of_regAt_none (s : State) {off : Offset} (h : regAt off = none) : readValue s off = 0#32 := by
  unfold readValue
  split <;> simp_all [regAt]

/-- The bus returns the value of the table of 20_memory.md R53. -/
theorem busRead_eq_readValue (s : State) (off : Offset) : s.busRead off = readValue s off := by
  unfold State.busRead
  cases hx : regAt off with
  | none => exact (readValue_of_regAt_none s hx).symm
  | some x => exact offset_of_regAt hx ▸ readReg_eq_readValue s x

/-- Settles O7: the read returns what the bus reads, which is the value of the table. -/
theorem busReadReturnsTheTableValue : Obligations.BusReadReturnsTheTableValue := by
  intro s ctx off rest ha hp
  rw [step_read ha hp, busRead_eq_readValue]

/-- The bus reads two states alike at an offset where their registers read alike. -/
theorem busRead_congr_of_readReg {s t : State} {off : Offset}
    (h : ∀ x : Reg, x.offset = off → t.readReg x = s.readReg x) : t.busRead off = s.busRead off := by
  unfold State.busRead
  cases hx : regAt off with
  | none => rfl
  | some x => exact h x (offset_of_regAt hx)

/-- An operand write stores the word in its register and leaves what every other register reads as
(20_memory.md R54). -/
theorem writeReg_of_storable (s : State) {x : Reg} (h : x ∈ storable) (w : Word) :
    ∃ g : Regs, s.writeReg x w = .next { s with regs := g } ∧
      ∀ y : Reg, ({ s with regs := g } : State).readReg y = if y = x then w else s.readReg y := by
  fin_cases h <;> exact ⟨_, rfl, fun y => by cases y <;> rfl⟩

/-- Settles O10: the registers by the write, the offsets by the register map. -/
theorem operandWriteStoresTheWord : Obligations.OperandWriteStoresTheWord := by
  intro s ctx x w rest hx hp
  obtain ⟨g, hg, hread⟩ := writeReg_of_storable { s with pending := rest } hx w
  refine ⟨_, (step_wr hp).trans hg, ?_, fun off hoff => ?_, rfl, rfl, rfl⟩
  · rw [busRead_offset, hread, if_pos rfl]
  · refine busRead_congr_of_readReg fun y hy => ?_
    have hne : y ≠ x := by rintro rfl; exact hoff hy.symm
    exact (hread y).trans (if_neg hne)

end Sys2Proof.Machine
end

section
/-! PROOFS. What a step takes, and what it does not look at: the contexts and the reads
(20_memory.md R50, R51, R55, R58). -/

namespace Sys2Proof.Machine

open Claims

/-- A step keeps the values read, and only a read appends one (20_memory.md R51). -/
theorem step_returned {s t : State} (h : step s = .next t) :
    t.returned = s.returned ∨
    ∃ ctx off rest v, s.pending = word ctx off .read :: rest ∧ t.regs = s.regs ∧ t.returned = s.returned ++ [v] := by
  rcases step_cases s with ⟨_, idle⟩ | ⟨_, _, reset⟩ | ⟨_, _, powerLoss⟩ | ⟨_, _, _, _, narrow⟩ |
    ⟨_, _, _, _, _, misaligned⟩ | ⟨⟨ctx, _, off, _⟩, rest, hp, rfl, _, rfl, read⟩ | ⟨x, rest, w, _, _, _, _, write⟩
  · cases idle.symm.trans h; exact .inl rfl
  · cases reset.symm.trans h; exact .inl rfl
  · cases powerLoss.symm.trans h; exact .inl rfl
  · cases narrow.symm.trans h
  · cases misaligned.symm.trans h
  · cases read.symm.trans h; exact .inr ⟨ctx, off, rest, _, hp, rfl, rfl⟩
  · obtain ⟨g, hg⟩ := busWrite_next { s with pending := rest } x.off w
    cases (write.trans hg).symm.trans h
    exact .inl rfl

/-- Settles O15: the events by `step_pending`, the values read by their two cases. -/
theorem stepTakesOneEvent : Obligations.StepTakesOneEvent := by
  intro s t h
  refine ⟨step_pending h, ?_⟩
  rcases step_returned h with hsame | ⟨ctx, off, rest, v, hp, hregs, happend⟩
  · exact ⟨by rw [hsame, List.take_length], .inl hsame⟩
  · exact ⟨by rw [happend, List.take_left], .inr ⟨ctx, off, rest, hp, hregs⟩⟩

/-- An outcome with its next state, if it has one, put through a function. -/
def mapNext (f : State → State) : Host.Outcome State Fault Refusal → Host.Outcome State Fault Refusal
  | .next s => .next (f s)
  | .fault r => .fault r
  | .refused r => .refused r

theorem retag_pending_cons {s : State} {e : Event} {rest : List Event} (h : s.pending = e :: rest) (f : Nat → Nat) :
    (retag f s).pending = retagEvent f e :: rest.map (retagEvent f) := by
  simp only [retag, h, List.map_cons]

/-- A host write is the same but for the names (20_memory.md R58). -/
theorem busWrite_retag (f : Nat → Nat) (s : State) (off : Offset) (w : Word) :
    (retag f s).busWrite off w = mapNext (retag f) (s.busWrite off w) := by
  obtain ⟨g, hs, ht⟩ := busWrite_congr (s := s) (t := retag f s) rfl rfl rfl off w
  rw [hs, ht]
  rfl

/-- A host read is the same but for the name of the context that it answers (20_memory.md R58). -/
theorem busReturn_retag (f : Nat → Nat) (s : State) (ctx : Nat) (off : Offset) :
    (retag f s).busReturn (f ctx) off = retag f (s.busReturn ctx off) := by
  have hb : (retag f s).busRead off = s.busRead off := busRead_congr rfl rfl rfl off
  simp only [State.busReturn, hb]
  simp only [retag, List.map_append, List.map_cons, List.map_nil]

/-- An event is handled the same but for the names (20_memory.md R58). -/
theorem handle_retag (f : Nat → Nat) (s : State) (e : Event) :
    (retag f s).handle (retagEvent f e) = mapNext (retag f) (s.handle e) := by
  cases e with
  | reset | powerLoss => rfl
  | access x =>
    obtain ⟨ctx, width, off, op⟩ := x
    cases width with
    | byte | half => rfl
    | word =>
      simp only [State.handle, retagEvent, State.perform]
      split
      · cases op with
        | read => exact congrArg Host.Outcome.next (busReturn_retag f s ctx off)
        | write w => exact busWrite_retag f s off w
      · rfl

/-- Renaming the contexts commutes with a step (20_memory.md R58). -/
theorem step_retag (f : Nat → Nat) (s : State) : step (retag f s) = mapNext (retag f) (step s) := by
  cases hp : s.pending with
  | nil => simp [step, hp, retag, mapNext]
  | cons e rest =>
    simp only [step, hp, retag_pending_cons hp]
    exact handle_retag f { s with pending := rest } e

/-- Settles O17: the step of the renamed state is the renamed outcome. -/
theorem contextsAreNotToldApart : Obligations.ContextsAreNotToldApart :=
  fun f s => ⟨fun t h => by rw [step_retag, h]; rfl, fun r h => by rw [step_retag, h]; rfl⟩

/-- The two states hold the same in the circuit and draw the same after the next power loss; the events to come and
the values read may differ. -/
structure State.SameCircuit (s t : State) : Prop where
  regs : s.regs = t.regs
  vref : s.vref = t.vref
  divr : s.divr = t.divr
  powerLosses : s.powerLosses = t.powerLosses

/-- A host access is legal when it is 32 bits wide at a multiple of 4 (20_memory.md R48). -/
theorem legal_access_iff {x : Access} : (Event.access x).legal = true ↔ x.width = .word ∧ x.off.toNat % 4 = 0 := by
  simp [Event.legal, Access.legal]

/-- A legal read changes nothing but the queue and the values read, which get one more (20_memory.md R51). -/
theorem step_of_isRead {s : State} {e : Event} {rest : List Event} (hl : e.legal = true) (hr : e.isRead = true)
    (hp : s.pending = e :: rest) :
    ∃ v, step s = .next { s with pending := rest, returned := s.returned ++ [v] } := by
  cases e with
  | reset | powerLoss => cases hr
  | access x =>
    obtain ⟨ctx, width, off, op⟩ := x
    obtain ⟨rfl, ha⟩ := legal_access_iff.1 hl
    obtain rfl : op = .read := by simpa [Event.isRead] using hr
    exact ⟨_, step_read ha hp⟩

theorem step_reset {s : State} {rest : List Event} (h : s.pending = .reset :: rest) :
    step s = .next { s with pending := rest, regs := Regs.reset } := by
  simp only [step, h, State.handle, State.platformReset]

theorem step_powerLoss {s : State} {rest : List Event} (h : s.pending = .powerLoss :: rest) :
    step s = .next
      { s with pending := rest, regs := powerLossRegs s.powerLosses, powerLosses := s.powerLosses + 1 } := by
  simp only [step, h, State.handle, State.losePower]

/-- A legal event other than a read leaves the same in the same circuit, and it keeps the values read. -/
theorem step_of_not_isRead {s t : State} {e : Event} {ss ts : List Event} (hl : e.legal = true)
    (hr : e.isRead = false) (hst : s.SameCircuit t) (hs : s.pending = e :: ss) (ht : t.pending = e :: ts) :
    ∃ (g : Regs) (n : Nat), step s = .next { s with regs := g, pending := ss, powerLosses := n } ∧
      step t = .next { t with regs := g, pending := ts, powerLosses := n } := by
  cases e with
  | reset => exact ⟨_, _, step_reset hs, by rw [step_reset ht, hst.powerLosses]⟩
  | powerLoss => exact ⟨_, _, step_powerLoss hs, by rw [step_powerLoss ht, hst.powerLosses]⟩
  | access x =>
    obtain ⟨ctx, width, off, op⟩ := x
    obtain ⟨rfl, ha⟩ := legal_access_iff.1 hl
    cases op with
    | read => cases hr
    | write w =>
      obtain ⟨g, hgs, hgt⟩ := busWrite_congr (s := { s with pending := ss }) (t := { t with pending := ts })
        hst.regs.symm hst.vref.symm hst.divr.symm off w
      exact ⟨g, _, (step_write ha hs).trans hgs, by rw [step_write ha ht, hgt, hst.powerLosses]⟩

/-- From states with the same circuit, a run of legal events and the same run without its reads end with the same
circuit; the values read count the reads. -/
theorem run_without_reads (es : List Event) (hl : ∀ e ∈ es, e.legal = true) {s t : State} (hst : s.SameCircuit t)
    (hs : s.pending = es) (ht : t.pending = es.filter fun e => !e.isRead) :
    ∃ s' t' : State, Host.Core.run Sys2Proof.core es.length s = .next s' ∧
      Host.Core.run Sys2Proof.core (es.filter fun e => !e.isRead).length t = .next t' ∧
      s'.SameCircuit t' ∧ t'.returned = t.returned ∧
      s'.returned.length = s.returned.length + (es.filter Event.isRead).length := by
  induction es generalizing s t with
  | nil => exact ⟨s, t, rfl, rfl, hst, rfl, rfl⟩
  | cons e es ih =>
    obtain ⟨hle, hles⟩ := List.forall_mem_cons.1 hl
    rw [List.length_cons]
    cases hr : e.isRead with
    | true =>
      obtain ⟨v, hv⟩ := step_of_isRead hle hr hs
      rw [List.filter_cons_of_neg (by simp [hr])] at ht ⊢
      rw [List.filter_cons_of_pos hr, run_of_step hv]
      obtain ⟨s', t', hs', ht', hst', hreads, hcount⟩ := ih hles
        (s := { s with pending := es, returned := s.returned ++ [v] }) ⟨hst.regs, hst.vref, hst.divr, hst.powerLosses⟩
        rfl ht
      refine ⟨s', t', hs', ht', hst', hreads, ?_⟩
      simp only [hcount, List.length_append, List.length_cons, List.length_nil]
      omega
    | false =>
      rw [List.filter_cons_of_pos (by simp [hr])] at ht ⊢
      obtain ⟨g, n, hgs, hgt⟩ := step_of_not_isRead hle hr hst hs ht
      rw [List.filter_cons_of_neg (by simp [hr]), List.length_cons, run_of_step hgs, run_of_step hgt]
      exact ih hles ⟨rfl, hst.vref, hst.divr, rfl⟩ rfl rfl

/-- Settles O57: the run and its run without reads start from the same circuit. -/
theorem readsDoNotAffectARun : Obligations.ReadsDoNotAffectARun := by
  intro s hl
  obtain ⟨t, u, ht, hu, htu, hreads, hcount⟩ := run_without_reads s.pending hl (s := s)
    (t := { s with pending := s.pending.filter fun e => !e.isRead }) ⟨rfl, rfl, rfl, rfl⟩ rfl rfl
  exact ⟨t, u, ht, hu, htu.regs, hreads, hcount⟩

end Sys2Proof.Machine
end

section
/-! PROOFS. Decoder and encoder are inverse to each other (30_encoding.md R69-R74). -/

namespace Sys2Proof

/-- A command has a word when its shift fits SH (30_encoding.md R69). -/
theorem Instr.wf_iff (i : Instr) : i.wf = true ↔ i.shift < 64 := by
  cases i <;> simp [Instr.wf, Instr.shift]

theorem shField_encode (i : Instr) : (shField (encode i)).toNat = i.shift % 64 := by
  have h := i.opcode.isLt
  rw [shField_toNat, encode_toNat]
  omega

/-- The decoder finds the command's fields in its word: FXMUL's shift comes back from SH, the other commands have
one word each (30_encoding.md R66, R71). -/
theorem decode_encode {i : Instr} (h : i.wf = true) : decode (encode i) = .ok i := by
  cases i with
  | fxmul sh =>
    obtain ⟨hop, hrsv⟩ := Laws.OpcodeField.fxmul sh
    have hsh : (shField (encode (.fxmul sh))).toNat = sh :=
      (shField_encode _).trans (Nat.mod_eq_of_lt ((Instr.wf_iff _).1 h))
    simp [decode, hrsv, hop, hsh, Instr.opcode]
  | nop | scale | poly | clamp | tomm | readum | readmm | clrst => rfl

/-- The word of FXMUL is OP = 1 with the shift in bits 13..8 (30_encoding.md R67). -/
theorem encode_fxmul {sh : Nat} (h : sh < 64) : encode (.fxmul sh) = BitVec.ofNat 32 (1 + 256 * sh) := by
  have hop : (Instr.fxmul sh).opcode.toNat = 1 := rfl
  apply BitVec.eq_of_toNat_eq
  rw [encode_toNat, hop, BitVec.toNat_ofNat, Instr.shift]
  omega

theorem wf_of_decode {w : Word} {i : Instr} (h : decode w = .ok i) : i.wf = true := by
  obtain ⟨_, _, hsh⟩ := fields_of_decode h
  rw [Instr.wf_iff, hsh]
  exact (shField w).isLt

/-- Decoding is the inverse of encoding: both round trips in one (30_encoding.md R70, R71). -/
theorem decode_eq_ok_iff {w : Word} {i : Instr} : decode w = .ok i ↔ i.wf = true ∧ encode i = w :=
  ⟨fun h => ⟨wf_of_decode h, encode_of_decode h⟩, fun ⟨hwf, hw⟩ => hw ▸ decode_encode hwf⟩

/-- Settles O19: the decoder's tests, run on the fields of the encoded word. -/
theorem decodeOfEncodeIsTheCommand : Obligations.DecodeOfEncodeIsTheCommand :=
  fun _ => decode_encode

/-- Settles O20: a legal word has the fields of its command, and a shift read from six bits fits. -/
theorem encodeOfDecodeIsTheWord : Obligations.EncodeOfDecodeIsTheWord :=
  fun _ _ => decode_eq_ok_iff.1

/-- Settles O21: the decoder evaluated on ten written-out words. -/
theorem writtenOutWordsDecode : Obligations.WrittenOutWordsDecode := by
  unfold Obligations.WrittenOutWordsDecode
  decide

end Sys2Proof
end

section
/-! PROOFS. The opcode map: match and mask of its rows, and the words outside it (30_encoding.md R71, R72). -/

namespace Sys2Proof

open Machine Claims

theorem and_0xFF_toNat (w : Word) : (w &&& 0xFF#32).toNat = (opField w).toNat := by
  rw [opField_toNat, BitVec.toNat_and]
  exact Nat.and_two_pow_sub_one_eq_mod _ 8

theorem shiftRight_8_and_0x3F_toNat (w : Word) : (w >>> 8 &&& 0x3F#32).toNat = (shField w).toNat := by
  rw [shField_toNat, BitVec.toNat_and, BitVec.toNat_ushiftRight, Nat.shiftRight_eq_div_pow]
  exact Nat.and_two_pow_sub_one_eq_mod _ 6

theorem shiftRight_14_toNat (w : Word) : (w >>> 14).toNat = (rsvField w).toNat := by
  rw [rsvField_toNat, BitVec.toNat_ushiftRight, Nat.shiftRight_eq_div_pow]

/-- A word has no bit outside its three fields (30_encoding.md R67). -/
theorem eq_of_fields {w v : Word} (hrsv : rsvField w = rsvField v) (hsh : shField w = shField v)
    (hop : opField w = opField v) : w = v := by
  rw [← BitVec.toNat_inj, rsvField_toNat, rsvField_toNat] at hrsv
  rw [← BitVec.toNat_inj, shField_toNat, shField_toNat] at hsh
  rw [← BitVec.toNat_inj, opField_toNat, opField_toNat] at hop
  apply BitVec.eq_of_toNat_eq
  omega

/-- FXMUL's mask keeps RSV and OP and clears SH (30_encoding.md R71). -/
theorem fields_and_fxmulMask (w : Word) : rsvField (w &&& 0xFFFFC0FF#32) = rsvField w ∧
    shField (w &&& 0xFFFFC0FF#32) = 0 ∧ opField (w &&& 0xFFFFC0FF#32) = opField w := by
  simp only [rsvField, shField, opField, BitVec.extractLsb'_and]
  exact ⟨BitVec.and_allOnes, BitVec.and_zero, BitVec.and_allOnes⟩

theorem and_fxmulMask_eq_iff (w : Word) :
    w &&& 0xFFFFC0FF#32 = 0x00000001#32 ↔ rsvField w = 0 ∧ opField w = 1#8 := by
  obtain ⟨hrsv, hsh, hop⟩ := fields_and_fxmulMask w
  constructor
  · intro h
    rw [← hrsv, ← hop, h]
    decide
  · rintro ⟨hr, ho⟩
    exact eq_of_fields (hrsv.trans hr) hsh (hop.trans ho)

/-- The row with a shift: FXMUL's match and mask, and SH (30_encoding.md R71). -/
theorem decode_eq_fxmul_iff (w : Word) (sh : Nat) : decode w = .ok (.fxmul sh) ↔
    w &&& 0xFFFFC0FF#32 = 0x00000001#32 ∧ sh = ((w >>> 8) &&& 0x3F#32).toNat := by
  rw [and_fxmulMask_eq_iff, shiftRight_8_and_0x3F_toNat]
  constructor
  · intro h
    obtain ⟨hrsv, hop, hsh⟩ := fields_of_decode h
    exact ⟨⟨hrsv, BitVec.eq_of_toNat_eq hop.symm⟩, hsh⟩
  · rintro ⟨⟨hrsv, hop⟩, rfl⟩
    simp [decode, hrsv, hop]

/-- A row without a shift is a command other than FXMUL, its word, and the mask of all bits (30_encoding.md R71). -/
theorem eq_of_mem_opcodeRows {row : Instr × Word × Word} (h : row ∈ opcodeRows) :
    row.1.wf = true ∧ row.1.opcode ≠ 1#8 ∧ row = (row.1, encode row.1, 0xFFFFFFFF#32) := by
  revert row
  decide

theorem decode_eq_ok_iff_row {row : Instr × Word × Word} (h : row ∈ opcodeRows) (w : Word) :
    decode w = .ok row.1 ↔ w &&& row.2.2 = row.2.1 := by
  obtain ⟨hwf, _, hrow⟩ := eq_of_mem_opcodeRows h
  have hmask : w &&& 0xFFFFFFFF#32 = w := BitVec.and_allOnes
  rw [hrow, hmask, decode_eq_ok_iff, and_iff_right hwf, eq_comm]

/-- Settles O18: two rows that select one word name one command, since the decoder answers one. -/
theorem decodeIsTheOpcodeMap : Obligations.DecodeIsTheOpcodeMap := by
  refine ⟨fun w row h => decode_eq_ok_iff_row h w, decode_eq_fxmul_iff, fun w r q hr hq hwr hwq => ?_,
    fun w row h hw hfx => ?_⟩
  · have hdr := (decode_eq_ok_iff_row hr w).2 hwr
    have hdq := (decode_eq_ok_iff_row hq w).2 hwq
    obtain ⟨_, _, hr⟩ := eq_of_mem_opcodeRows hr
    obtain ⟨_, _, hq⟩ := eq_of_mem_opcodeRows hq
    rw [hr, hq, Except.ok.inj (hdr.symm.trans hdq)]
  · have hplain := (decode_eq_ok_iff_row h w).2 hw
    have hfxmul := (decode_eq_fxmul_iff w _).2 ⟨hfx, rfl⟩
    obtain ⟨_, hop, _⟩ := eq_of_mem_opcodeRows h
    rw [Except.ok.inj (hplain.symm.trans hfxmul)] at hop
    exact hop rfl

theorem Instr.opcode_lt (i : Instr) : i.opcode.toNat < 9 := by
  cases i with
  | fxmul _ => exact (by decide : 1 < 9)
  | _ => decide

theorem Instr.opcode_eq_or_shift_eq (i : Instr) : i.opcode = 1#8 ∨ i.shift = 0 := by
  cases i with
  | fxmul _ => exact .inl rfl
  | _ => exact .inr rfl

theorem exists_decodePlain {op : BitVec 8} (hlt : op.toNat < 9) (hne : op ≠ 1#8) : ∃ i, decodePlain op = .ok i := by
  have hne : op.toNat ≠ 1 := fun e => hne (BitVec.eq_of_toNat_eq e)
  unfold decodePlain
  split
  case h_9 =>
    simp only [imp_false] at *
    omega
  all_goals exact ⟨_, rfl⟩

/-- The legal words by their fields (30_encoding.md R66, R71). -/
theorem exists_decode_iff (w : Word) : (∃ i, decode w = .ok i) ↔
    rsvField w = 0 ∧ (opField w).toNat < 9 ∧ (opField w = 1#8 ∨ shField w = 0) := by
  constructor
  · rintro ⟨i, hi⟩
    obtain ⟨hrsv, hop, hsh⟩ := fields_of_decode hi
    rw [BitVec.toNat_inj] at hop
    refine ⟨hrsv, hop ▸ i.opcode_lt, hop ▸ i.opcode_eq_or_shift_eq.imp_right fun hzero => ?_⟩
    exact BitVec.eq_of_toNat_eq (hsh.symm.trans hzero)
  · rintro ⟨hrsv, hlt, hsh⟩
    by_cases hfx : opField w = 1#8
    · exact ⟨.fxmul (shField w).toNat, by simp [decode, hrsv, hfx]⟩
    · obtain ⟨i, hi⟩ := exists_decodePlain hlt hfx
      exact ⟨i, by simp [decode, hrsv, hfx, hsh.resolve_left hfx, hi]⟩

theorem illegalWord_iff_fields (w : Word) : IllegalWord w ↔
    rsvField w ≠ 0 ∨ 9 ≤ (opField w).toNat ∨ (opField w ≠ 1#8 ∧ shField w ≠ 0) := by
  simp only [IllegalWord, ne_eq, ← BitVec.toNat_inj, and_0xFF_toNat, shiftRight_8_and_0x3F_toNat, shiftRight_14_toNat]
  rfl

/-- A word is illegal iff it selects no row (30_encoding.md R72). -/
theorem illegalWord_iff (w : Word) : IllegalWord w ↔ ∀ i, decode w ≠ .ok i := by
  rw [illegalWord_iff_fields, ← not_exists, exists_decode_iff, not_and_or, not_and_or, not_or, not_lt]

/-- Settles O23: the fields of an illegal word, and the CMD write that finds no command in it. -/
theorem illegalWordsRaiseEillAlone : Obligations.IllegalWordsRaiseEillAlone := by
  intro s ctx w rest hp
  refine ⟨illegalWord_iff w, fun h => ?_⟩
  rw [step_cmdWrite hp]
  obtain ⟨i, hi, _⟩ | ⟨_, _, e⟩ := executeWord_cases w { s with pending := rest }
  · exact absurd hi ((illegalWord_iff w).1 h i)
  · exact e

end Sys2Proof
end

section
/-! PROOFS. The assembler on decimal shifts (30_encoding.md R74, R76). -/

namespace Sys2Proof.Machine

theorem digit?_of_isDigit {c : Char} (h : c.isDigit = true) : digit? 10 c = some (c.toNat - 48) := by
  have hlo : 48 ≤ c.toNat := (Char.isDigit_iff_toNat.1 h).1
  have hhi : c.toNat ≤ 57 := (Char.isDigit_iff_toNat.1 h).2
  have hlt : c.toNat - 48 < 10 := by omega
  simp only [digit?, hlo, hhi, and_self, if_true, Option.filter, hlt, decide_true]

/-- On decimal digits the assembler's value is the library's. -/
theorem digits?_eq_ofDigitChars {cs : List Char} (h : ∀ c ∈ cs, c.isDigit = true) (acc : Nat) :
    digits? 10 acc cs = some (Nat.ofDigitChars 10 cs acc) := by
  induction cs generalizing acc with
  | nil => rfl
  | cons c cs ih =>
    obtain ⟨hc, hcs⟩ := List.forall_mem_cons.1 h
    rw [digits?, digit?_of_isDigit hc, Nat.ofDigitChars_cons, Option.bind_some, ih hcs, Nat.mul_comm]
    rfl

/-- A string of decimal digits is never read as a `0x` number (30_encoding.md R74). -/
theorem number?_of_isDigit {cs : List Char} (hne : cs ≠ []) (h : ∀ c ∈ cs, c.isDigit = true) :
    number? cs = some (Nat.ofDigitChars 10 cs 0) := by
  rw [← digits?_eq_ofDigitChars h]
  unfold number?
  split
  · exact absurd rfl hne
  · exact absurd (h 'x' (by simp)) (by decide)
  · rfl

theorem isDigit_toDigits (n : Nat) : ∀ c ∈ Nat.toDigits 10 n, c.isDigit = true :=
  fun _ => Nat.isDigit_of_mem_toDigits (by decide) (by decide)

theorem number?_toDigits (n : Nat) : number? (Nat.toDigits 10 n) = some n := by
  rw [number?_of_isDigit Nat.toDigits_ne_nil (isDigit_toDigits n), Nat.ofDigitChars_ten_toDigits]

theorem dropComment_of_isDigit {cs : List Char} (h : ∀ c ∈ cs, c.isDigit = true) : dropComment cs = cs := by
  induction cs with
  | nil => rfl
  | cons c cs ih =>
    obtain ⟨hc, hcs⟩ := List.forall_mem_cons.1 h
    have hsemi : c ≠ ';' := by rintro rfl; cases hc
    rw [dropComment, if_neg hsemi, ih hcs]

theorem toLower_of_isDigit {c : Char} (h : c.isDigit = true) : c.toLower = c := by
  have hhi : c.toNat ≤ 57 := (Char.isDigit_iff_toNat.1 h).2
  have hupper : ¬(c.val ≥ 'A'.val ∧ c.val ≤ 'Z'.val) := fun ⟨hA, _⟩ =>
    absurd (show 65 ≤ c.toNat from hA) (by omega)
  rw [Char.toLower, dif_neg hupper]

theorem wordsOf_of_isDigit {cs : List Char} (hne : cs ≠ []) (h : ∀ c ∈ cs, c.isDigit = true) :
    wordsOf cs = [cs] := by
  induction cs with
  | nil => exact absurd rfl hne
  | cons c cs ih =>
    obtain ⟨hc, hcs⟩ := List.forall_mem_cons.1 h
    have hblank : ¬(c = ' ' ∨ c = '\t') := by rintro (rfl | rfl) <;> cases hc
    rw [wordsOf, if_neg hblank, toLower_of_isDigit hc]
    cases cs with
    | nil => rfl
    | cons d ds => rw [ih (List.cons_ne_nil d ds) hcs]

theorem tokens_fxmul {cs : List Char} (hne : cs ≠ []) (h : ∀ c ∈ cs, c.isDigit = true) :
    tokens ("FXMUL ".toList ++ cs) = ["fxmul".toList, cs] := by
  simp [tokens, dropComment, dropComment_of_isDigit h, wordsOf, wordsOf_of_isDigit hne h, hne]

/-- `FXMUL n` is the command with that shift, when it has a word (30_encoding.md R69, R74). -/
theorem assemble?_fxmul (n : Nat) : assemble? ("FXMUL ".toList ++ (toString n).toList) =
    if n < 64 then some (.fxmul n) else none := by
  have hn : (toString n).toList = Nat.toDigits 10 n := by
    rw [Nat.toString_eq_ofList_toDigits, String.toList_ofList]
  rw [hn, assemble?, tokens_fxmul Nat.toDigits_ne_nil (isDigit_toDigits n)]
  simp [number?_toDigits, Option.filter, Instr.wf]

theorem assembleWord?_fxmul (n : Nat) : assembleWord? ("FXMUL ".toList ++ (toString n).toList) =
    if n < 64 then some (BitVec.ofNat 32 (1 + 256 * n)) else none := by
  rw [assembleWord?, assemble?_fxmul]
  split
  · next h => rw [Option.map_some, encode_fxmul h]
  · rfl

/-- Settles O58: FXMUL with a decimal shift in general, the four other lines by evaluation. -/
theorem assemblerReadsShiftsAndPseudos : Obligations.AssemblerReadsShiftsAndPseudos := by
  refine ⟨fun n hn => ?_, assembleWord?_fxmul 64, by decide⟩
  rw [assembleWord?_fxmul, if_pos hn]

end Sys2Proof.Machine
end

section
/-! PROOFS. The fixed-point multiplier: what FXMUL leaves, and the arithmetic laws of its product (40_fixed_point.md
R86-R88). -/

namespace Sys2Proof.Machine

open Claims

/-- `wrap32` of the exact shifted product is the low half of the 64-bit one (00_scope.md R14). -/
theorem low_shifted (x y : Word) (n : Nat) : low (shifted x y n) = wrap32 (asr (s32 x * s32 y) n) :=
  (wrap32_shifted_product x y n).symm

theorem overflows_shifted (x y : Word) (n : Nat) : overflows (shifted x y n) = !fits32 (asr (s32 x * s32 y) n) := by
  rw [overflows, shifted, prod64, toInt_shifted_product, not_fits32_eq]

/-- The unit's writes in 64-bit words, where the model has exact integers (00_scope.md R14). -/
theorem Regs.multiply_eq (g : Regs) (n : Nat) : g.multiply n = { g with
    plo := (prod64 g.a g.b).extractLsb' 0 32
    phi := (prod64 g.a g.b).extractLsb' 32 32
    r := low (shifted g.a g.b n)
    ov := g.ov || overflows (shifted g.a g.b n) } := by
  ext1 <;> simp [prod64, ofInt64_product, low_shifted, overflows_shifted]

/-- Everything FXMUL does; it always completes (40_fixed_point.md R86). -/
theorem exec_fxmul (sh : Nat) (s : State) : exec (.fxmul sh) s = .next { s with regs := { s.regs with
    plo := (prod64 s.regs.a s.regs.b).extractLsb' 0 32
    phi := (prod64 s.regs.a s.regs.b).extractLsb' 32 32
    r := low (shifted s.regs.a s.regs.b sh)
    ov := s.regs.ov || overflows (shifted s.regs.a s.regs.b sh)
    err := 0#4 } } := by
  have h : exec (.fxmul sh) s = .next { s with regs := { s.regs.multiply sh with err := 0#4 } } := rfl
  rw [h, Regs.multiply_eq]

/-- Settles O24: the command's effect, and for RSV ≠ 0 the effect of an illegal word. -/
theorem fxmulResult : Obligations.FxmulResult := by
  refine ⟨fun s sh hsh => ⟨encode_fxmul hsh, exec_fxmul sh s⟩, fun s ctx w rest _ hrsv hp => ?_⟩
  exact (illegalWordsRaiseEillAlone s ctx w rest hp).2 (.inl hrsv)

theorem halves_append (p : BitVec 64) : (p.extractLsb' 32 32 ++ p.extractLsb' 0 32 : BitVec (32 + 32)) = p := by
  rw [BitVec.extractLsb'_append_extractLsb'_eq_extractLsb' (by decide)]
  exact BitVec.extractLsb'_eq_self

/-- The 64-bit product never wraps (40_fixed_point.md R87 item 1). -/
theorem toInt_prod64 (x y : Word) : (prod64 x y).toInt = s32 x * s32 y := by
  have h := product_bounds x y
  rw [prod64, ← ofInt64_product, toInt_ofInt64 (by omega)]

/-- Settles O25: PHI and PLO are the halves of a product that fits 64 bits. -/
theorem fxmulProductIsExact : Obligations.FxmulProductIsExact := by
  refine fun s sh => ⟨_, exec_fxmul sh s, ?_, abs_le.2 (product_bounds s.regs.a s.regs.b)⟩
  rw [halves_append]
  exact toInt_prod64 s.regs.a s.regs.b

/-- Narrowing keeps a shifted product that fits (40_fixed_point.md R87 item 7). -/
theorem toInt_low_shifted {x y : Word} {n : Nat} (h : overflows (shifted x y n) = false) :
    (low (shifted x y n)).toInt = asr (s32 x * s32 y) n := by
  rw [overflows_shifted, Bool.not_eq_false', fits32_iff] at h
  rw [low_shifted]
  exact s32_wrap32_of_fits h

/-- Settles O26: without an overflow R is the exact shifted product, and the shift is a floor division. -/
theorem fxmulRoundsTowardMinusInfinity : Obligations.FxmulRoundsTowardMinusInfinity := by
  refine fun s sh _ => ⟨_, exec_fxmul sh s, ?_⟩
  dsimp only
  cases hov : overflows (shifted s.regs.a s.regs.b sh) with
  | true => exact .inr (Bool.or_true _)
  | false =>
    rw [toInt_low_shifted hov]
    exact .inl (asr_floor (s32 s.regs.a * s32 s.regs.b) sh)

theorem prod64_comm (x y : Word) : prod64 x y = prod64 y x := BitVec.mul_comm _ _

theorem shifted_comm (x y : Word) (n : Nat) : shifted x y n = shifted y x n := by
  rw [shifted, prod64_comm, shifted]

/-- Settles O27: A and B enter FXMUL's writes through their product alone. -/
theorem fxmulCommutes : Obligations.FxmulCommutes := by
  refine fun s sh => ⟨_, exec_fxmul sh s, ?_⟩
  rw [exec_fxmul, prod64_comm, shifted_comm]

/-- A value needs more than 32 signed bits iff its low half does not extend back to it (00_scope.md R13). -/
theorem overflows_iff_signExtend_low_ne (q : BitVec 64) : overflows q = true ↔ (low q).signExtend 64 ≠ q := by
  have hlow : ((low q).signExtend 64).toInt = s32 (wrap32 q.toInt) := by
    rw [toInt_signExtend64, low, setWidth_eq_wrap32]
  rw [ne_eq, ← BitVec.toInt_inj, hlow, overflows, decide_eq_true_iff]
  constructor
  · intro hout heq
    have := s32_bounds (wrap32 q.toInt)
    omega
  · intro hne
    by_contra hin
    exact hne (s32_wrap32_of_fits (by omega))

theorem shifted_zero (x y : Word) : shifted x y 0 = prod64 x y := BitVec.sshiftRight_zero

/-- The low half of an arithmetic shift by 32 is the high half (40_fixed_point.md R88, last row). -/
theorem low_shifted_32 (x y : Word) : low (shifted x y 32) = (prod64 x y).extractLsb' 32 32 := by
  ext i hi
  have hlow : i < 64 := by omega
  have hhigh : 32 + i < 64 := by omega
  simp [low, shifted, BitVec.getElem_sshiftRight, hlow, hhigh]

/-- |p| ≤ 2^62, so the product shifted by 32 fits (40_fixed_point.md R87 item 1). -/
theorem overflows_shifted_32 (x y : Word) : overflows (shifted x y 32) = false := by
  have h := product_bounds x y
  rw [overflows_shifted, asr_eq_div, Bool.not_eq_false', fits32_iff]
  omega

/-- Settles O28: a shift by 0 keeps the product, one by 32 moves PHI into the low half. -/
theorem fxmulShiftZeroAndThirtyTwo : Obligations.FxmulShiftZeroAndThirtyTwo := by
  refine fun s => ⟨⟨_, exec_fxmul 0 s, ?_, fun hov => ?_⟩, _, exec_fxmul 32 s, low_shifted_32 _ _, ?_⟩
  · dsimp only
    rw [shifted_zero, low, BitVec.setWidth_eq_extractLsb' (by decide)]
  · dsimp only
    rw [hov, Bool.false_or, shifted_zero, halves_append]
    exact overflows_iff_signExtend_low_ne _
  · dsimp only
    rw [overflows_shifted_32, Bool.or_false]

end Sys2Proof.Machine
end

section
/-! PROOFS. The scaler: which of its three ends a scaling command takes, and the arithmetic laws of VPIN and V
(41_voltage_scaling.md R96-R100). -/

namespace Sys2Proof

/-- A parameter has the same value signed and unsigned (00_scope.md R9). -/
theorem PosQ.toInt_word (p : PosQ) : p.word.toInt = p.word.toNat ∧ p.word.toNat < 2147483648 := by
  have hpos := p.positive
  have hlt := p.word.isLt
  rw [BitVec.toInt_eq_toNat_cond] at hpos ⊢
  split at hpos <;> omega

end Sys2Proof

namespace Sys2Proof.Machine

open Claims

section

variable {s : State}

/-- A configured 2^RES lies between 64 and 65536 (00_scope.md R8). -/
theorem adcMax_of_configured (hc : Configured s) :
    s.regs.adcMax = 2 ^ s.regs.res.toNat ∧ 64 ≤ s.regs.adcMax ∧ s.regs.adcMax ≤ 65536 :=
  adcMax_of_cfgv ((configured_iff s).1 hc)

/-- The model's range check is the one of 41_voltage_scaling.md R96. -/
theorem sampleInRange_iff (hc : Configured s) : SampleInRange s ↔ u32 s.regs.raw < s.regs.adcMax := by
  rw [(adcMax_of_configured hc).1, SampleInRange]

/-- Every command that scales raises ENOCFG while unconfigured, whatever RAW holds (60_exceptions.md R146). -/
theorem exec_of_not_configured {i : Instr} (hi : scales i = true) (hc : ¬Configured s) :
    exec i s = .next (withErr s 2#4) := by
  rcases exec_cases i s with ⟨_, _, e⟩ | ⟨_, h, _, _⟩ | ⟨h, _⟩
  · exact e
  · exact absurd ((configured_iff s).2 h) hc
  · exact absurd ((configured_iff s).2 (h hi).1) hc

theorem exec_of_not_sampleInRange {i : Instr} (hi : scales i = true) (hc : Configured s) (hr : ¬SampleInRange s) :
    exec i s = .next (withErr s 3#4) := by
  rw [sampleInRange_iff hc] at hr
  rcases exec_cases i s with ⟨_, h, _⟩ | ⟨_, _, _, e⟩ | ⟨h, _⟩
  · cases h.symm.trans ((configured_iff s).1 hc)
  · exact e
  · exact absurd (h hi).2 hr

theorem exec_of_sampleInRange (i : Instr) (hc : Configured s) (hr : SampleInRange s) :
    exec i s = .next { s with regs := { cmdRegs i s with err := 0#4 } } := by
  rw [sampleInRange_iff hc] at hr
  rcases exec_cases i s with ⟨_, h, _⟩ | ⟨_, _, h, _⟩ | ⟨_, e⟩
  · cases h.symm.trans ((configured_iff s).1 hc)
  · exact absurd hr (Nat.not_lt.2 h)
  · exact e

end

/-- The product of step 1 never needs more than 47 bits (41_voltage_scaling.md R99 item 1). -/
theorem sample_mul_vref_lt {raw : Nat} (hraw : raw < 65536) (p : PosQ) : raw * p.word.toNat < 2 ^ 47 :=
  (Nat.mul_lt_mul'' hraw p.toInt_word.2).trans_eq (by decide)

/-- Step 1 on unsigned 64-bit words is the model's exact one: nothing wraps (41_voltage_scaling.md R99 item 1). -/
theorem toInt_pinQuotient {raw : Word} {M : Nat} (hM : M ≤ 65536) (hr : raw.toNat < M) (p : PosQ) :
    (raw.setWidth 64 * p.word.setWidth 64 / BitVec.ofNat 64 (M - 1)).toInt =
      pinVoltage raw.toNat M p.word.toInt := by
  have hn := sample_mul_vref_lt (hr.trans_le hM) p
  have hq := (Nat.div_le_self (raw.toNat * p.word.toNat) (M - 1)).trans_lt hn
  have htoNat : (raw.setWidth 64 * p.word.setWidth 64 / BitVec.ofNat 64 (M - 1)).toNat =
      raw.toNat * p.word.toNat / (M - 1) := by
    rw [BitVec.toNat_udiv, BitVec.toNat_mul, BitVec.toNat_setWidth_of_le (by decide),
      BitVec.toNat_setWidth_of_le (by decide), BitVec.toNat_ofNat, Nat.mod_eq_of_lt (by omega),
      Nat.mod_eq_of_lt (by omega)]
  rw [BitVec.toInt_eq_toNat_of_lt (by omega), htoNat, pinVoltage, p.toInt_word.1,
    Int.natCast_ediv, Int.natCast_mul, Int.natCast_pred_of_pos (by omega)]

theorem pinVoltage_zero (M : Nat) (p : Int) : pinVoltage 0 M p = 0 := by simp [pinVoltage]

theorem pinVoltage_largest {M : Nat} (hM : 64 ≤ M) (p : Int) : pinVoltage (M - 1) M p = p := by
  rw [pinVoltage, Int.natCast_pred_of_pos (by omega)]
  exact Int.mul_ediv_cancel_left p (by omega)

theorem pinVoltage_mono {raw raw' M : Nat} (h : raw ≤ raw') (hM : 64 ≤ M) {p : Int} (hp : 0 < p) :
    pinVoltage raw M p ≤ pinVoltage raw' M p :=
  Int.ediv_le_ediv (by omega) (mul_le_mul_of_nonneg_right (by omega) hp.le)

/-- Once P_VREF ≥ ADCMAX − 1, one code is worth at least one unit of VPIN (log 14). -/
theorem pinVoltage_eq_zero_iff {raw M : Nat} (hM : 64 ≤ M) {p : Int} (hp : (M : Int) - 1 ≤ p) :
    pinVoltage raw M p = 0 ↔ raw = 0 := by
  constructor
  · intro h
    by_contra hraw
    have hone : 1 ≤ pinVoltage 1 M p := by
      rw [pinVoltage, Int.le_ediv_iff_mul_le (by omega)]
      omega
    have hmono := pinVoltage_mono (Nat.one_le_iff_ne_zero.2 hraw) hM (p := p) (by omega)
    omega
  · rintro rfl
    exact pinVoltage_zero M p

section

variable {s : State} (hc : Configured s) (hr : SampleInRange s)
include hc hr

theorem pin_eq_wrap32 : pin s = wrap32 (pinVoltage (u32 s.regs.raw) s.regs.adcMax (s32 s.vref.word)) := by
  obtain ⟨hM, _, hhi⟩ := adcMax_of_configured hc
  rw [pin, low, setWidth_eq_wrap32, ← hM, toInt_pinQuotient hhi ((sampleInRange_iff hc).1 hr)]

theorem pinVoltage_bounds_of_sampleInRange :
    0 ≤ pinVoltage (u32 s.regs.raw) s.regs.adcMax (s32 s.vref.word) ∧
      pinVoltage (u32 s.regs.raw) s.regs.adcMax (s32 s.vref.word) ≤ s32 s.vref.word :=
  pinVoltage_bounds (adcMax_of_configured hc).2.1 ((sampleInRange_iff hc).1 hr) s.vref.positive

/-- VPIN never needs narrowing (41_voltage_scaling.md R99 item 2). -/
theorem toInt_pin : (pin s).toInt = pinVoltage (u32 s.regs.raw) s.regs.adcMax (s32 s.vref.word) := by
  have hb := pinVoltage_bounds_of_sampleInRange hc hr
  have hv := s32_bounds s.vref.word
  rw [pin_eq_wrap32 hc hr]
  exact s32_wrap32_of_fits (by omega)

theorem toInt_pin_bounds : 0 ≤ (pin s).toInt ∧ (pin s).toInt ≤ s.vref.word.toInt := by
  rw [toInt_pin hc hr]
  exact pinVoltage_bounds_of_sampleInRange hc hr

/-- The unit's writes in 64-bit words, where the model has exact integers (41_voltage_scaling.md R96). -/
theorem scaled_eq : s.regs.scaled s.vref.word s.divr.word = { s.regs with
    vpin := pin s, v := low (sensor s), ov := s.regs.ov || overflows (sensor s) } := by
  rw [sensor, low_shifted, overflows_shifted, s32, toInt_pin hc hr, pin_eq_wrap32 hc hr]
  rfl

/-- Everything SCALE does when it completes (41_voltage_scaling.md R96). -/
theorem exec_scale : exec .scale s = .next { s with regs := { s.regs with
    vpin := pin s, v := low (sensor s), ov := s.regs.ov || overflows (sensor s), err := 0#4 } } := by
  rw [exec_of_sampleInRange .scale hc hr, cmdRegs, scaled_eq hc hr]

/-- The divider multiply never goes below 0, so it overflows only upwards (41_voltage_scaling.md R99 item 4). -/
theorem overflows_sensor_iff :
    overflows (sensor s) = true ↔ 2147483647 < (pin s).toInt * s.divr.word.toInt / 65536 := by
  have hnonneg : 0 ≤ (pin s).toInt * s.divr.word.toInt / 65536 :=
    Int.ediv_nonneg (mul_nonneg (toInt_pin_bounds hc hr).1 s.divr.positive.le) (by decide)
  rw [sensor, overflows_shifted, asr_eq_div, not_fits32_eq, decide_eq_true_iff]
  exact or_iff_right (not_lt.2 (hnonneg.trans' (by decide)))

end

/-- Settles O29: the two errors by the commands that scale, the completion by the exactness of VPIN. -/
theorem scaleResult : Obligations.ScaleResult := fun _ =>
  ⟨rfl, exec_of_not_configured rfl, exec_of_not_sampleInRange rfl, exec_scale⟩

/-- Settles O30: VPIN is the exact quotient of step 1, which lies in the range and meets its two ends. -/
theorem scaleStaysBetweenZeroAndVref : Obligations.ScaleStaysBetweenZeroAndVref := by
  intro s hc hr
  obtain ⟨hM, hlo, hhi⟩ := adcMax_of_configured hc
  obtain ⟨hnonneg, hle⟩ := toInt_pin_bounds hc hr
  have hraw := (sampleInRange_iff hc).1 hr
  refine ⟨_, exec_scale hc hr, sample_mul_vref_lt (hraw.trans_le hhi) s.vref, hnonneg, hle, fun hmax => ?_,
    fun hzero => ?_, ?_⟩
  · apply BitVec.eq_of_toInt_eq
    rw [toInt_pin hc hr, u32, hmax, ← hM, pinVoltage_largest hlo]
  · apply BitVec.eq_of_toInt_eq
    rw [toInt_pin hc hr, hzero]
    exact pinVoltage_zero _ _
  · rw [← overflows_sensor_iff hc hr]
    exact Bool.or_eq_true_iff

/-- With the least legal P_VREF, code 1 of a 6-bit resolution is worth 1/63 of a unit of VPIN (log 14). -/
def leastVrefSample : State :=
  { State.reset with regs := { Regs.reset with res := 6#5, raw := 1#32 }, vref := ⟨1#32, by decide⟩ }

/-- Settles O31: the exact quotient vanishes at code 0 alone, and `leastVrefSample` lies below the bound. -/
theorem scaleZeroReadingNeedsLargeVref : Obligations.ScaleZeroReadingNeedsLargeVref := by
  constructor
  · intro s hc hr hvref
    obtain ⟨hM, hlo, _⟩ := adcMax_of_configured hc
    have hp : (s.regs.adcMax : Int) - 1 ≤ s.vref.word.toInt := by
      rw [s.vref.toInt_word.1]
      omega
    refine ⟨_, exec_scale hc hr, ?_⟩
    calc pin s = 0#32 ↔ (pin s).toInt = 0 := BitVec.toInt_inj.symm
      _ ↔ u32 s.regs.raw = 0 := by rw [toInt_pin hc hr, pinVoltage_eq_zero_iff hlo hp]
      _ ↔ s.regs.raw = 0#32 := BitVec.toNat_inj (y := 0#32)
  · have hc : Configured leastVrefSample := by unfold Configured; decide
    have hr : SampleInRange leastVrefSample := by unfold SampleInRange; decide
    exact ⟨leastVrefSample, _, hc, hr, exec_scale hc hr, by decide, by decide⟩

/-- The same configuration with another raw sample (41_voltage_scaling.md R100). -/
def State.withSample (s : State) (raw : Word) : State := { s with regs := { s.regs with raw := raw } }

theorem toInt_pin_mono {s : State} {raw' : Word} (hc : Configured s) (hle : s.regs.raw.toNat ≤ raw'.toNat)
    (hr' : SampleInRange (s.withSample raw')) : (pin s).toInt ≤ (pin (s.withSample raw')).toInt := by
  have hr : SampleInRange s := hle.trans_lt hr'
  have hc' : Configured (s.withSample raw') := hc
  rw [toInt_pin hc hr, toInt_pin hc' hr']
  exact pinVoltage_mono hle (adcMax_of_configured hc).2.1 s.vref.positive

/-- Settles O32: the division of step 1 and the shift of step 2 are monotone, and narrowing keeps what fits. -/
theorem scaleIsMonotone : Obligations.ScaleIsMonotone := by
  intro s raw' hc hle hr'
  have hmono := toInt_pin_mono hc hle hr'
  refine ⟨_, _, exec_scale hc (hle.trans_lt hr'), exec_scale (s := s.withSample raw') hc hr', hmono,
    fun hov hov' => ?_⟩
  calc (low (sensor s)).toInt
      = asr ((pin s).toInt * s.divr.word.toInt) 16 := toInt_low_shifted hov
    _ ≤ asr ((pin (s.withSample raw')).toInt * s.divr.word.toInt) 16 :=
        asr_mono (mul_le_mul_of_nonneg_right hmono s.divr.positive.le) 16
    _ = (low (sensor (s.withSample raw'))).toInt := (toInt_low_shifted hov').symm

end Sys2Proof.Machine
end

section
/-! PROOFS. The response curve: its arithmetic in 64-bit words, what POLY leaves, and the ranges of UMR and UM
(42_response_curve.md R106-R114). -/

namespace Sys2Proof.Machine

open Claims

/-- Four 32-bit terms cannot overflow 64 bits (42_response_curve.md R108). -/
theorem toInt_sum (b0 b1 b2 b3 v : Word) : (sum b0 b1 b2 b3 v).toInt =
    s32 (low (shifted b3 (cube v) 16)) + s32 (low (shifted b2 (square v) 16)) + s32 (low (shifted b1 v 16)) +
      s32 b0 := by
  have h3 := s32_bounds (low (shifted b3 (cube v) 16))
  have h2 := s32_bounds (low (shifted b2 (square v) 16))
  have h1 := s32_bounds (low (shifted b1 v 16))
  have h0 := s32_bounds b0
  simp only [sum, BitVec.toInt_add, toInt_signExtend64, Int.bmod_def]
  omega

/-- The polynomial in 64-bit words, where the model has exact integers (42_response_curve.md R106). -/
theorem cubic_eq (c : Coeffs) (v : Word) :
    cubic c v = ⟨low (sum c.b0 c.b1 c.b2 c.b3 v), curveOverflows c.b0 c.b1 c.b2 c.b3 v⟩ := by
  have hlow : low (sum c.b0 c.b1 c.b2 c.b3 v) = wrap32 _ := setWidth_eq_wrap32 _
  have hov : overflows (sum c.b0 c.b1 c.b2 c.b3 v) = !fits32 _ := (not_fits32_eq _).symm
  rw [curveOverflows, hov, hlow, toInt_sum]
  simp only [overflows_shifted, cube, square, low_shifted]
  rfl

section atZeroVoltage

variable (b0 b1 b2 b3 : Word)

theorem shifted_zero_right (x : Word) (n : Nat) : shifted x 0#32 n = 0#64 := by simp [shifted, prod64]

theorem square_zero : square 0#32 = 0#32 := by decide

theorem cube_zero : cube 0#32 = 0#32 := by decide

/-- At V = 0 every power of V vanishes and the constant term is left (42_response_curve.md R114). -/
theorem sum_at_zero : sum b0 b1 b2 b3 0#32 = b0.signExtend 64 := by
  simp [sum, square_zero, cube_zero, shifted_zero_right, low]

theorem low_signExtend (x : Word) : low (x.signExtend 64) = x := by
  rw [low, setWidth_eq_wrap32, toInt_signExtend64, wrap32_s32]

theorem overflows_signExtend (x : Word) : overflows (x.signExtend 64) = false := by
  rw [Bool.eq_false_iff, ne_eq, overflows_iff_signExtend_low_ne, low_signExtend, not_not]

theorem curveOverflows_at_zero : curveOverflows b0 b1 b2 b3 0#32 = false := by
  have hzero : overflows 0#64 = false := by decide
  simp [curveOverflows, square_zero, cube_zero, shifted_zero_right, sum_at_zero, overflows_signExtend, hzero]

end atZeroVoltage

section rescale

variable (fmm : Word)

theorem rescaleUm_floor : rescaleUm fmm * 65536 ≤ s32 fmm * 1000 ∧ s32 fmm * 1000 < (rescaleUm fmm + 1) * 65536 :=
  asr_floor (s32 fmm * 1000) 16

/-- |FMM| ≤ 2^31, so the rescaled value is below 2^25 in size (42_response_curve.md R109). -/
theorem abs_rescaleUm_lt : |rescaleUm fmm| < 2 ^ 25 := by
  have h := s32_bounds fmm
  have hfloor := rescaleUm_floor fmm
  rw [abs_lt]
  omega

/-- The rescale is a fixed-point multiply by 1000 (42_response_curve.md R109). -/
theorem micrometres_eq_wrap32 : micrometres fmm = wrap32 (rescaleUm fmm) := low_shifted fmm 1000#32 16

/-- UMR never needs narrowing (42_response_curve.md R109). -/
theorem toInt_micrometres : (micrometres fmm).toInt = rescaleUm fmm := by
  have h := abs_lt.1 (abs_rescaleUm_lt fmm)
  rw [micrometres_eq_wrap32]
  exact s32_wrap32_of_fits (by omega)

end rescale

/-- The clamp on signed words is the model's one on integers (00_scope.md R13). -/
theorem saturated_eq_wrap32 (u : Word) : saturated u = wrap32 (clampTo (s32 u) 0 maxUm) := by
  have hlow : u.slt 0#32 = true ↔ s32 u < 0 := decide_eq_true_iff
  have hhigh : (10000#32).slt u = true ↔ s32 u > maxUm := decide_eq_true_iff
  simp only [saturated, clampTo, hlow, hhigh, apply_ite wrap32, wrap32_s32]
  rfl

theorem toInt_saturated_bounds (u : Word) : 0 ≤ (saturated u).toInt ∧ (saturated u).toInt ≤ 10000 := by
  have hb : 0 ≤ clampTo (s32 u) 0 maxUm ∧ clampTo (s32 u) 0 maxUm ≤ 10000 := clampTo_bounds _ (by decide)
  have hexact : (saturated u).toInt = clampTo (s32 u) 0 maxUm := by
    rw [saturated_eq_wrap32]
    exact s32_wrap32_of_fits (by omega)
  rwa [hexact]

/-- Everything POLY does; it always completes (42_response_curve.md R106). -/
theorem exec_poly (s : State) : exec .poly s = .next
    (afterPoly s s.regs.clampOn s.regs.bank.b0 s.regs.bank.b1 s.regs.bank.b2 s.regs.bank.b3) := by
  rw [exec_of_not_scales rfl, cmdRegs, Regs.evalCurve_eq, cubic_eq]
  simp only [← toInt_micrometres]
  rw [← s32, ← saturated_eq_wrap32, wrap32_s32]
  rfl

theorem exec_poly_of_default {s : State} (h : s.regs.csel = false) :
    exec .poly s = .next (afterPoly s true defaultB0 defaultB1 defaultB2 defaultB3) := by
  rw [exec_poly, Regs.clampOn, Regs.bank, h]
  rfl

theorem exec_poly_of_substitute {s : State} (h : s.regs.csel = true) :
    exec .poly s = .next (afterPoly s s.regs.cclamp s.regs.cb0 s.regs.cb1 s.regs.cb2 s.regs.cb3) := by
  rw [exec_poly, Regs.clampOn, Regs.bank, h]
  rfl

/-- Settles O33: the exact integers of the model are the 64-bit words of R106, for either bank. -/
theorem polyResult : Obligations.PolyResult := fun _ =>
  ⟨rfl, exec_poly_of_default, exec_poly_of_substitute⟩

/-- Settles O34: UMR is the rescaled FMM, by its floor law and its bound. -/
theorem polyRescaleIsAFloor : Obligations.PolyRescaleIsAFloor := by
  refine fun s => ⟨_, exec_poly s, ?_⟩
  dsimp only [afterPoly]
  rw [toInt_micrometres]
  obtain ⟨hle, hlt⟩ := rescaleUm_floor _
  exact ⟨hle, hlt, abs_rescaleUm_lt _⟩

theorem clampOn_iff (g : Regs) : g.clampOn = true ↔ g.csel = false ∨ g.cclamp = true := by
  simp [Regs.clampOn]

/-- Settles O35: a POLY that clamps leaves a saturated distance, whatever the curve gave. -/
theorem polyClampedRange : Obligations.PolyClampedRange := by
  intro s h
  refine ⟨_, exec_poly s, ?_⟩
  rw [(clampOn_iff s.regs).2 h]
  exact toInt_saturated_bounds _

/-- Settles O36: the default curve's result is computed from V, OV and the constants alone. -/
theorem defaultCurveIgnoresSubstituteBank : Obligations.DefaultCurveIgnoresSubstituteBank := by
  intro s c0 c1 c2 c3 raw res h
  refine ⟨_, exec_poly_of_default h, rfl, rfl, rfl, rfl, ?_⟩
  rw [exec_poly_of_default]
  · simp only [afterPoly]
  · exact h

/-- Settles O37: FMM is the constant term DB0, whose rescaled value is clamped from below. -/
theorem polyAtZeroVoltage : Obligations.PolyAtZeroVoltage := by
  intro s hc hv
  have humr : (micrometres defaultB0).toInt = -919 := by decide
  refine ⟨_, exec_poly_of_default hc, ?_⟩
  dsimp only [afterPoly]
  rw [hv, sum_at_zero, low_signExtend, curveOverflows_at_zero, Bool.or_false]
  exact ⟨by decide, humr, by decide, by decide, by decide, rfl⟩

end Sys2Proof.Machine
end

section
/-! PROOFS. The output clamper and the unit converter (43_clamp_convert.md R121-R127). -/

namespace Sys2Proof.Machine

open Claims

/-- CLAMP's register writes on signed words (43_clamp_convert.md R121). -/
theorem Regs.saturate_eq (g : Regs) :
    g.saturate = { g with um := saturated g.um, clo := g.um.slt 0#32, chi := (10000#32).slt g.um } := by
  rw [saturated_eq_wrap32]
  rfl

/-- Everything CLAMP does; it always completes (43_clamp_convert.md R121). -/
theorem exec_clamp (s : State) : exec .clamp s = .next { s with regs := { s.regs with
    um := saturated s.regs.um, clo := s.regs.um.slt 0#32, chi := (10000#32).slt s.regs.um, err := 0#4 } } := by
  rw [exec_of_not_scales rfl, cmdRegs, Regs.saturate_eq]

/-- CLAMP of a distance in range leaves it and clears the flags (43_clamp_convert.md R121, R122). -/
theorem exec_clamp_of_mem {s : State} (h : 0 ≤ s.regs.um.toInt ∧ s.regs.um.toInt ≤ 10000) :
    exec .clamp s = .next { s with regs := { s.regs with clo := false, chi := false, err := 0#4 } } := by
  have hlow : s.regs.um.slt 0#32 = false := decide_eq_false (not_lt.2 h.1)
  have hhigh : (10000#32).slt s.regs.um = false := decide_eq_false (not_lt.2 h.2)
  have hsat : saturated s.regs.um = s.regs.um := by simp [saturated, hlow, hhigh]
  rw [exec_clamp, hsat, hlow, hhigh]

/-- The quotient by 1000 in signed words is the model's exact one; it never overflows (43_clamp_convert.md R126). -/
theorem toInt_sdiv_1000 (u : Word) : (u.sdiv 1000#32).toInt = truncDiv (s32 u) 1000 :=
  BitVec.toInt_sdiv_of_ne_or_ne u 1000#32 (.inr (by decide))

/-- Everything TOMM does; it always completes (43_clamp_convert.md R126). -/
theorem exec_tomm (s : State) : exec .tomm s = .next { s with regs := { s.regs with
    mm := s.regs.um.sdiv 1000#32, err := 0#4 } } := by
  rw [exec_of_not_scales rfl, cmdRegs, Regs.toMm, ← toInt_sdiv_1000, ← s32, wrap32_s32]

/-- Below 0 the truncated quotient is the ceiling (43_clamp_convert.md R127). -/
theorem truncDiv_of_neg {u : Int} (h : u < 0) : truncDiv u 1000 = -(-u / 1000) := by
  rw [← truncDiv_nonneg (by omega), truncDiv_neg, neg_neg]

/-- Settles O38: the clamp on signed words is the model's one on integers. -/
theorem clampResult : Obligations.ClampResult := fun s => ⟨rfl, exec_clamp s⟩

/-- Settles O39: the first CLAMP leaves a distance in range, which the second one does not move. -/
theorem clampIsIdempotent : Obligations.ClampIsIdempotent := fun s =>
  ⟨_, exec_clamp s, exec_clamp_of_mem (toInt_saturated_bounds s.regs.um)⟩

/-- Settles O40: the model's exact quotient is the signed division of words. -/
theorem tommResult : Obligations.TommResult := fun s => ⟨rfl, exec_tomm s⟩

/-- Settles O41: MM is the floor of UM / 1000 from 0 up and the ceiling below 0. -/
theorem tommRoundsTowardZero : Obligations.TommRoundsTowardZero := by
  refine fun s => ⟨_, exec_tomm s, ?_⟩
  dsimp only
  have hbounds : -2147483648 ≤ s.regs.um.toInt ∧ s.regs.um.toInt ≤ 2147483647 := s32_bounds s.regs.um
  rw [toInt_sdiv_1000, s32, abs_le]
  rcases le_or_gt 0 s.regs.um.toInt with h | h
  · rw [truncDiv_nonneg h]
    omega
  · rw [truncDiv_of_neg h]
    omega

end Sys2Proof.Machine
end

section
/-! PROOFS. The composed reads as their commands in turn, and the two control commands (44_orchestration.md
R131-R138). -/

namespace Sys2Proof.Machine

open Claims

/-- POLY neither reads nor writes ERR before it completes (42_response_curve.md R106). -/
theorem Regs.evalCurve_setErr (g : Regs) (e : BitVec 4) :
    Regs.evalCurve { g with err := e } = { g.evalCurve with err := e } := by
  rw [Regs.evalCurve_eq, Regs.evalCurve_eq]
  rfl

/-- POLY clamps the default curve (42_response_curve.md R111). -/
theorem poly_um_bounds_of_default {s t : State} (h : exec .poly s = .next t) (hcsel : s.regs.csel = false) :
    0 ≤ t.regs.um.toInt ∧ t.regs.um.toInt ≤ 10000 := by
  obtain ⟨u, hu, hbounds⟩ := polyClampedRange s (.inl hcsel)
  cases hu.symm.trans h
  exact hbounds

section

variable {s t : State} (hc : Configured s) (hr : SampleInRange s)
include hc hr

/-- The ERR = OK that SCALE leaves is what READUM leaves, too (44_orchestration.md R131). -/
theorem exec_readum_of_scale (h : exec .scale s = .next t) : exec .readum s = exec .poly t := by
  cases (exec_of_sampleInRange .scale hc hr).symm.trans h
  rw [exec_of_sampleInRange .readum hc hr, exec_of_not_scales rfl]
  simp only [cmdRegs, Regs.evalCurve_setErr]

/-- TOMM reads the UM that READUM wrote (44_orchestration.md R134). -/
theorem exec_readmm_of_readum (h : exec .readum s = .next t) : exec .readmm s = exec .tomm t := by
  cases (exec_of_sampleInRange .readum hc hr).symm.trans h
  rw [exec_of_sampleInRange .readmm hc hr, exec_of_not_scales rfl]
  rfl

/-- With the default curve a completed READUM leaves a clamped distance (42_response_curve.md R111). -/
theorem readum_um_bounds_of_default (hcsel : s.regs.csel = false) (h : exec .readum s = .next t) :
    0 ≤ t.regs.um.toInt ∧ t.regs.um.toInt ≤ 10000 := by
  have hpoly := (exec_readum_of_scale hc hr (exec_scale hc hr)).symm.trans h
  exact poly_um_bounds_of_default hpoly hcsel

end

/-- A failing SCALE ends every command that scales in the same way (44_orchestration.md R131, R134). -/
theorem exec_eq_of_fails {s : State} {i j : Instr} (hi : scales i = true) (hj : scales j = true)
    (h : ¬(Configured s ∧ SampleInRange s)) : exec i s = exec j s := by
  by_cases hc : Configured s
  · have hr : ¬SampleInRange s := fun hr => h ⟨hc, hr⟩
    rw [exec_of_not_sampleInRange hi hc hr, exec_of_not_sampleInRange hj hc hr]
  · rw [exec_of_not_configured hi hc, exec_of_not_configured hj hc]

/-- A clamped distance is 0 to 10 whole millimetres (43_clamp_convert.md R127). -/
theorem toInt_sdiv_1000_bounds {u : Word} (h : 0 ≤ u.toInt ∧ u.toInt ≤ 10000) :
    0 ≤ (u.sdiv 1000#32).toInt ∧ (u.sdiv 1000#32).toInt ≤ 10 := by
  rw [toInt_sdiv_1000, s32, truncDiv_nonneg h.1]
  omega

/-- Settles O42: POLY runs on the state that SCALE completes with, and a failing SCALE is the whole command. -/
theorem readumIsScaleThenPoly : Obligations.ReadumIsScaleThenPoly := by
  refine fun s => ⟨rfl, fun hc hr => ?_, exec_eq_of_fails rfl rfl⟩
  have hscale := exec_scale hc hr
  exact ⟨_, _, hscale, exec_poly _, (exec_readum_of_scale hc hr hscale).trans (exec_poly _)⟩

/-- Settles O43: TOMM runs on the state that READUM completes with, whose UM the default curve keeps in range. -/
theorem readmmIsReadumThenTomm : Obligations.ReadmmIsReadumThenTomm := by
  refine fun s => ⟨rfl, fun hc hr => ?_, exec_eq_of_fails rfl rfl⟩
  have hreadum := exec_of_sampleInRange .readum hc hr
  refine ⟨_, _, hreadum, exec_tomm _, (exec_readmm_of_readum hc hr hreadum).trans (exec_tomm _), rfl, rfl, ?_⟩
  exact fun hcsel => toInt_sdiv_1000_bounds (readum_um_bounds_of_default hc hr hcsel hreadum)

theorem exec_nop (s : State) : exec .nop s = .next (withErr s 0#4) := exec_of_not_scales rfl s

/-- Settles O45: NOP has no units to run, and a legal CFG write is one update of CFG and ERR. -/
theorem nopResult : Obligations.NopResult := by
  refine ⟨fun s => ⟨rfl, exec_nop s⟩, fun s ctx w rest hp hleg => ⟨_, step_cfgWrite hp, ?_⟩⟩
  rw [writeCfg_of_legal _ ((legalRes_resField_iff w).2 hleg)]

/-- Everything CLRST does; it always completes (44_orchestration.md R138). -/
theorem exec_clrst (s : State) : exec .clrst s =
    .next { s with regs := { s.regs with err := 0#4, ov := false, clo := false, chi := false } } :=
  exec_of_not_scales rfl s

/-- Bit 16 of STATUS is CFGV (10_state.md R21). -/
theorem statusWord_and_bit16 (g : Regs) : g.statusWord &&& 0x00010000#32 = BitVec.ofNat 32 (65536 * g.cfgv.toNat) := by
  have herr := g.err.isLt
  have hov := g.ov.toNat_lt
  have hclo := g.clo.toNat_lt
  have hchi := g.chi.toNat_lt
  have hcfgv := g.cfgv.toNat_lt
  apply BitVec.eq_of_toNat_eq
  calc (g.statusWord &&& 0x00010000#32).toNat
      = g.statusWord.toNat / 2 ^ 16 % 2 * 2 ^ 16 := by
        rw [BitVec.toNat_and, ← toNat_getLsbD]
        exact Nat.and_two_pow _ 16
    _ = (BitVec.ofNat 32 (65536 * g.cfgv.toNat)).toNat := by
        rw [statusWord_toNat, BitVec.toNat_ofNat]
        omega

/-- With ERR and the three flags at 0, STATUS reads as CFGV alone (44_orchestration.md R138). -/
theorem statusWord_of_cleared (g : Regs) :
    Regs.statusWord { g with err := 0#4, ov := false, clo := false, chi := false } =
      g.statusWord &&& 0x00010000#32 := by
  rw [statusWord_and_bit16, statusWord_eq_ofNat, cfgv_eq_decide]
  simp

/-- Settles O46: the command clears what STATUS holds, and CFGV is derived from CFG, which it leaves. -/
theorem clrstResult : Obligations.ClrstResult :=
  fun s => ⟨rfl, _, exec_clrst s, rfl, statusWord_of_cleared s.regs⟩

end Sys2Proof.Machine
end

section
/-! PROOFS. How commands end and what a driver makes of it; steps on no event and after a power loss
(60_exceptions.md R141-R157). -/

namespace Sys2Proof.Machine

open Claims

@[simp] theorem withErr_err (s : State) (e : BitVec 4) : (withErr s e).regs.err = e := rfl

/-- Settles O44: the configuration is looked at before the sample, and both before anything is written. -/
theorem readErrorsArePrecise : Obligations.ReadErrorsArePrecise := by
  intro s i hi
  rw [canFail_eq_scales] at hi
  exact ⟨exec_of_not_configured hi, exec_of_not_sampleInRange hi⟩

/-- Settles O48: a command that scales by its three ends, any other by its completion. -/
theorem commandOutcomeCodes : Obligations.CommandOutcomeCodes := by
  intro i s
  rw [canFail_eq_scales]
  cases hi : scales i with
  | false => exact ⟨_, exec_of_not_scales hi s, by simp⟩
  | true =>
    by_cases hc : Configured s
    · by_cases hr : SampleInRange s
      · exact ⟨_, exec_of_sampleInRange i hc hr, by simp [hc, hr]⟩
      · exact ⟨_, exec_of_not_sampleInRange hi hc hr, by simp [hc, hr]⟩
    · exact ⟨_, exec_of_not_configured hi hc, by simp [hc]⟩

/-- After a command that completed the driver returns what it read (60_exceptions.md R145). -/
theorem driverRead_of_ok {g : Regs} (h : g.err = 0#4) (value : Word) :
    driverRead g true value = .measurement value.toInt := by
  simp [driverRead, ErrCode.code, h]

/-- Any other outcome has no document code (60_exceptions.md R145). -/
theorem driverRead_of_error {g : Regs} (h : g.err ≠ 0#4) (value : Word) : driverRead g true value = .noCode g.err := by
  simp [driverRead, ErrCode.code, h]

/-- Settles O59: the driver answers by the ERR of READUM's three ends; the default curve keeps UM in range. -/
theorem driverReadsTheMeasurement : Obligations.DriverReadsTheMeasurement := by
  intro s hcsel
  obtain ⟨g, hg⟩ := exec_next .readum s
  refine ⟨_, hg, fun hc hr => ⟨?_, readum_um_bounds_of_default hc hr hcsel hg⟩, fun hc => ?_, fun hc hr => ?_⟩
  · cases (exec_of_sampleInRange .readum hc hr).symm.trans hg
    exact driverRead_of_ok rfl _
  · cases (exec_of_not_configured rfl hc).symm.trans hg
    exact driverRead_of_error (by simp) _
  · cases (exec_of_not_sampleInRange rfl hc hr).symm.trans hg
    exact driverRead_of_error (by simp) _

/-- Settles O6: the reset overwrites every register that the power loss left at any value. -/
theorem resetAfterPowerLossRestores : Obligations.ResetAfterPowerLossRestores :=
  fun _ _ hp => ⟨_, _, step_powerLoss hp, step_reset rfl, rfl, rfl, rfl, rfl, rfl⟩

theorem step_of_no_event {s : State} (h : s.pending = []) : step s = .next s := by
  simp only [step, h]

/-- Settles O16: a step drops the first event, so the same events are left only when there is none. -/
theorem noEventHoldsTheState : Obligations.NoEventHoldsTheState := by
  refine fun s => ⟨step_of_no_event, fun h => ?_⟩
  have htail : s.pending = s.pending.tail := step_pending h
  cases hp : s.pending with
  | nil => rfl
  | cons e rest =>
    rw [hp] at htail
    exact absurd htail (List.cons_ne_self e rest)

end Sys2Proof.Machine
end

section
/-! PROOFS. The platform's reset, and runs to their last event (70_reset_and_hazards.md R161, R174). -/

namespace Sys2Proof.Machine

open Claims

/-- All but the two constants of the circuit is read from the stored registers (10_state.md R35). -/
theorem busRead_congr_of_regs {s t : State} (h : t.regs = s.regs) {off : Offset} (hvref : off ≠ 0x40#8)
    (hdivr : off ≠ 0x44#8) : t.busRead off = s.busRead off := by
  refine busRead_congr_of_readReg fun x hx => ?_
  cases x with
  | vref => exact absurd hx.symm hvref
  | divr => exact absurd hx.symm hdivr
  | _ => simp only [State.readReg, h]

/-- Settles O5: the step leaves the reset registers, and of the rest only the queue changes. -/
theorem platformResetRestoresEveryRegister : Obligations.PlatformResetRestoresEveryRegister :=
  fun _ _ hp => ⟨_, step_reset hp, fun _ => busRead_congr_of_regs (by rfl), rfl, rfl, rfl, rfl, rfl⟩

/-- A queue of legal events is empty after as many steps as it holds events (70_reset_and_hazards.md R174). -/
theorem run_of_legal (es : List Event) (hl : ∀ e ∈ es, e.legal = true) {s : State} (hs : s.pending = es) :
    ∃ t : State, Host.Core.run Sys2Proof.core es.length s = .next t ∧ t.pending = [] := by
  induction es generalizing s with
  | nil => exact ⟨s, run_zero s, hs⟩
  | cons e es ih =>
    obtain ⟨t, ht⟩ := step_next_of_legal (hs ▸ hl)
    have htail : t.pending = es := by rw [step_pending ht, hs, List.tail_cons]
    rw [List.length_cons, run_of_step ht]
    exact ih (List.forall_mem_cons.1 hl).2 htail

/-- Settles O56: each step answers, since its event is legal, and shortens the queue by one. -/
theorem legalRunsComplete : Obligations.LegalRunsComplete :=
  fun s hl => run_of_legal s.pending hl rfl

end Sys2Proof.Machine
end

section
/-! PROOFS. Runs one after the other: the start states are closed under runs (70_reset_and_hazards.md R174). -/

namespace Sys2Proof.Machine

/-- A run goes on from the state that its first m steps end in. -/
theorem run_add {m : Nat} {s t : State} (h : Host.Core.run Sys2Proof.core m s = .next t) (n : Nat) :
    Host.Core.run Sys2Proof.core (m + n) s = Host.Core.run Sys2Proof.core n t := by
  induction m generalizing s with
  | zero => cases h; rw [Nat.zero_add]
  | succ m ih =>
    rw [Nat.succ_add]
    cases hs : Sys2Proof.core.step s with
    | next u =>
      rw [run_of_step hs] at h ⊢
      exact ih h
    | fault r => simp [Host.Core.run, hs] at h
    | refused r => simp [Host.Core.run, hs] at h

/-- Legal accesses make a run from every state; it leaves the parameters and no access in flight. -/
theorem exists_runsTo (s : State) {xs : List Access} (hl : ∀ x ∈ xs, x.legal = true) :
    ∃ t, s.RunsTo xs t ∧ t.pending = [] ∧ t.vref = s.vref ∧ t.divr = s.divr := by
  obtain ⟨g, hg⟩ := run_accesses xs hl s
  obtain ⟨_, hrun⟩ := hg (s.startRun xs) rfl rfl rfl [] (List.append_nil _).symm
  exact ⟨_, ⟨hl, hrun⟩, rfl, rfl, rfl⟩

/-- The accesses of a run leave the same registers from another state with the same circuit, in front of any further
events (10_state.md R38). -/
theorem State.RunsTo.run {s t a : State} {xs : List Access} {rest : List Event} (h : s.RunsTo xs t)
    (hregs : a.regs = s.regs) (hvref : a.vref = s.vref) (hdivr : a.divr = s.divr)
    (hp : a.pending = xs.map .access ++ rest) :
    ∃ b, Host.Core.run Sys2Proof.core xs.length a = .next b ∧
      b.regs = t.regs ∧ b.vref = a.vref ∧ b.divr = a.divr ∧ b.pending = rest := by
  obtain ⟨hl, hrun⟩ := h
  obtain ⟨g, hg⟩ := run_accesses xs hl s
  obtain ⟨_, hsame⟩ := hg (s.startRun xs) rfl rfl rfl [] (List.append_nil _).symm
  obtain ⟨_, hother⟩ := hg a hregs hvref hdivr rest hp
  cases hsame.symm.trans hrun
  exact ⟨_, hother, rfl, rfl, rfl, rfl⟩

/-- Two runs in turn are one run when the second starts with the registers that the first one leaves. -/
theorem State.RunsTo.append {a u s t : State} {xs ys : List Access} (hau : a.RunsTo xs u) (hst : s.RunsTo ys t)
    (hregs : u.regs = s.regs) (hvref : a.vref = s.vref) (hdivr : a.divr = s.divr) :
    ∃ v, a.RunsTo (xs ++ ys) v ∧ v.regs = t.regs := by
  obtain ⟨b, hfirst, hbregs, hbvref, hbdivr, hbpending⟩ :=
    hau.run (a := a.startRun (xs ++ ys)) rfl rfl rfl List.map_append
  obtain ⟨v, hsecond, hvregs, -⟩ := hst.run (a := b) (rest := []) (hbregs.trans hregs) (hbvref.trans hvref)
    (hbdivr.trans hdivr) (by rw [hbpending, List.append_nil])
  refine ⟨v, ⟨List.forall_mem_append.2 ⟨hau.1, hst.1⟩, ?_⟩, hvregs⟩
  rw [List.length_append, run_add hfirst, hsecond]

theorem reachable_resetWith (p q : PosQ) : (State.resetWith p q).Reachable :=
  ⟨[], _, ⟨List.forall_mem_nil _, run_zero _⟩, rfl⟩

/-- Where a run from a reachable state ends is reachable: its accesses follow those that reached the state. -/
theorem State.Reachable.of_runsTo {s t : State} {xs : List Access} (hs : s.Reachable) (hrun : s.RunsTo xs t)
    (hvref : t.vref = s.vref) (hdivr : t.divr = s.divr) : t.Reachable := by
  obtain ⟨ys, u, hu, hregs⟩ := hs
  rw [State.Reachable, hvref, hdivr]
  exact ⟨_, hu.append hrun hregs rfl rfl⟩

end Sys2Proof.Machine
end

section
/-! PROOFS. What holds of every reachable state (70_reset_and_hazards.md R174): the effects of a legal access, and
the facts that each of them keeps. -/

namespace Sys2Proof.Machine

open Claims

/-- The registers a legal access leaves, as the outputs of the units need it (`StepEffect` holds CFG and STATUS alone).
`stored` is a read, an ignored write, an operand write or a STATUS write: it leaves the outputs, CFG, ERR and the clamp
flags. The premises of `failed` and `completed` say when a command ends so (60_exceptions.md R143). -/
inductive AccessEffect (s : State) : Regs → Prop
  | stored (a b raw v um cb0 cb1 cb2 cb3 : Word) (ov : Bool) :
    AccessEffect s { s.regs with
      a := a, b := b, raw := raw, v := v, um := um, cb0 := cb0, cb1 := cb1, cb2 := cb2, cb3 := cb3, ov := ov }
  | configured {w : Word} (hleg : legalRes (w.extractLsb' 0 5) = true) :
    AccessEffect s { s.regs with
      res := w.extractLsb' 0 5, csel := w.getLsbD 8, cclamp := w.getLsbD 9, err := ErrCode.ok.code }
  | failed {c : ErrCode} (henocfg : c = .enocfg → s.regs.cfgv = false) (herange : c = .erange → s.regs.cfgv = true) :
    AccessEffect s { s.regs with err := c.code }
  | completed {i : Instr} (hwf : i.wf = true) (hscales : scales i = true → Configured s ∧ SampleInRange s) :
    AccessEffect s { cmdRegs i s with err := ErrCode.ok.code }

/-- A CMD write fails or completes a command that has a word (30_encoding.md R66, R72, 60_exceptions.md R143). -/
theorem executeWord_accessEffect {s t : State} {w : Word} (h : executeWord w s = .next t) : AccessEffect s t.regs := by
  rcases executeWord_cases w s with ⟨i, hw, e⟩ | ⟨_, _, e⟩
  · rcases exec_cases i s with ⟨_, hcfgv, e'⟩ | ⟨_, hcfgv, _, e'⟩ | ⟨hscales, e'⟩ <;> cases (e.trans e').symm.trans h
    · exact .failed (fun _ => hcfgv) nofun
    · exact .failed nofun fun _ => hcfgv
    · refine .completed (wf_of_decode hw) fun hi => ?_
      obtain ⟨hcfgv, hraw⟩ := hscales hi
      have hc := (configured_iff s).2 hcfgv
      exact ⟨hc, (sampleInRange_iff hc).2 hraw⟩
  · cases e.symm.trans h
    exact .failed nofun nofun

theorem writeReg_accessEffect {s t : State} {x : Reg} {w : Word} (h : s.writeReg x w = .next t) :
    AccessEffect s t.regs := by
  cases x with
  | cmd => exact executeWord_accessEffect h
  | cfg =>
    cases h
    cases hleg : legalRes (w.extractLsb' 0 5) with
    | true => rw [writeCfg_of_legal _ hleg]; exact .configured hleg
    | false => rw [writeCfg_of_illegal _ hleg]; exact .failed (c := .ecfg) nofun nofun
  | status => cases h; rw [writeStatus_eq]; exact .stored ..
  | _ => cases h; exact .stored ..

theorem busWrite_accessEffect {s t : State} {off : Offset} {w : Word} (h : s.busWrite off w = .next t) :
    AccessEffect s t.regs := by
  unfold State.busWrite at h
  split at h
  · exact writeReg_accessEffect h
  · cases h; exact .stored ..

/-- A step on a legal access has one of the effects (20_memory.md R53, R54). -/
theorem step_accessEffect {s t : State} {x : Access} {rest : List Event} (hl : x.legal = true)
    (hp : s.pending = .access x :: rest) (h : step s = .next t) : AccessEffect s t.regs := by
  obtain ⟨ctx, width, off, op⟩ := x
  obtain ⟨rfl, ha⟩ := legal_access_iff.1 hl
  cases op with
  | read => cases (step_read ha hp).symm.trans h; exact .stored ..
  | write w =>
    obtain ⟨g, hg, hrest⟩ := busWrite_congr (s := s) (t := { s with pending := rest }) rfl rfl rfl off w
    cases hrest.symm.trans ((step_write ha hp).symm.trans h)
    exact (busWrite_accessEffect hg :)

/-- The invariant of O55, on one access of a queue whose further events are free. -/
theorem access_keeps_wf {s t : State} {x : Access} {rest : List Event} (hl : x.legal = true)
    (hp : s.pending = .access x :: rest) (hwf : s.regs.Wf) (h : step s = .next t) : t.regs.Wf := by
  obtain ⟨g, hg⟩ := step_access s hl
  obtain ⟨_, hs⟩ := hg s rfl rfl rfl rest hp
  obtain ⟨_, halone⟩ := hg { s with pending := [.access x] } rfl rfl rfl [] rfl
  cases hs.symm.trans h
  exact (stepKeepsTheInvariant { s with pending := [.access x] } _ ⟨hwf, by simp⟩ halone).1

theorem State.Reachable.wf {s : State} (h : s.Reachable) : s.regs.Wf :=
  Reachable.induction (P := fun s => s.regs.Wf) (fun _ _ hr _ _ hwf => hr ▸ hwf) (fun _ _ => Regs.wf_reset)
    (fun _ _ _ _ => access_keeps_wf) h

/-- PHI, PLO and R are the outputs of one multiply with a shift that has a word (40_fixed_point.md R86). -/
def Regs.HoldsProduct (g : Regs) : Prop :=
  ∃ (x y : Word) (sh : Nat), sh < 64 ∧ (g.phi ++ g.plo : BitVec (32 + 32)) = prod64 x y ∧ g.r = low (shifted x y sh)

/-- The facts of `ReachableFacts` that `Regs.Wf` does not hold, of the registers beside a VREF. -/
structure Regs.Facts (g : Regs) (vref : Word) : Prop where
  err_ne_enocfg : g.cfgv = true → g.err ≠ ErrCode.enocfg.code
  err_ne_erange : g.cfgv = false → g.err ≠ ErrCode.erange.code
  unconfigured : g.cfgv = false → g.cfgWord = 0x00000200#32 ∧ g.vpin = 0#32
  vpin_bounds : 0 ≤ g.vpin.toInt ∧ g.vpin.toInt ≤ vref.toInt
  umr_eq : g.umr = micrometres g.fmm
  mm_bound : |g.mm.toInt| ≤ 2147483
  product : g.HoldsProduct

theorem Regs.facts_reset (p : PosQ) : Regs.reset.Facts p.word where
  err_ne_enocfg := nofun
  err_ne_erange := fun _ => by decide
  unconfigured := fun _ => ⟨by decide, rfl⟩
  vpin_bounds := ⟨le_rfl, p.positive.le⟩
  umr_eq := by decide
  mm_bound := by decide
  product := ⟨0#32, 0#32, 0, by decide, by decide, by decide⟩

theorem code_injective {c d : ErrCode} (h : c.code = d.code) : c = d := by
  revert h
  cases c <;> cases d <;> decide

section completed

variable {i : Instr} {s : State}

/-- VPIN is written by the commands that scale, and by no other (10_state.md R40). -/
theorem cmdRegs_vpin_cases (hscales : scales i = true → Configured s ∧ SampleInRange s) :
    (cmdRegs i s).vpin = s.regs.vpin ∨ Configured s ∧ SampleInRange s ∧ (cmdRegs i s).vpin = pin s := by
  cases i with
  | scale | readum | readmm =>
    obtain ⟨hc, hr⟩ := hscales rfl
    exact .inr ⟨hc, hr, by simp [cmdRegs, scaled_eq hc hr]⟩
  | _ => exact .inl (by simp [cmdRegs])

theorem cmdRegs_vpin_bounds (hscales : scales i = true → Configured s ∧ SampleInRange s)
    (h : 0 ≤ s.regs.vpin.toInt ∧ s.regs.vpin.toInt ≤ s.vref.word.toInt) :
    0 ≤ (cmdRegs i s).vpin.toInt ∧ (cmdRegs i s).vpin.toInt ≤ s.vref.word.toInt := by
  rcases cmdRegs_vpin_cases hscales with e | ⟨hc, hr, e⟩ <;> rw [e]
  · exact h
  · exact toInt_pin_bounds hc hr

@[simp] theorem cmdRegs_cfgv : (cmdRegs i s).cfgv = s.regs.cfgv := by simp [Regs.cfgv]

@[simp] theorem cmdRegs_cfgWord : (cmdRegs i s).cfgWord = s.regs.cfgWord := by simp [Regs.cfgWord]

theorem cmdRegs_unconfigured (hscales : scales i = true → Configured s ∧ SampleInRange s)
    (h : s.regs.cfgv = false → s.regs.cfgWord = 0x00000200#32 ∧ s.regs.vpin = 0#32)
    (hcfgv : (cmdRegs i s).cfgv = false) : (cmdRegs i s).cfgWord = 0x00000200#32 ∧ (cmdRegs i s).vpin = 0#32 := by
  rw [cmdRegs_cfgv] at hcfgv
  rcases cmdRegs_vpin_cases hscales with e | ⟨hc, _⟩
  · rw [cmdRegs_cfgWord, e]
    exact h hcfgv
  · cases hcfgv.symm.trans ((configured_iff s).1 hc)

/-- FMM and UMR are written together (42_response_curve.md R106). -/
theorem cmdRegs_umr_eq (h : s.regs.umr = micrometres s.regs.fmm) :
    (cmdRegs i s).umr = micrometres (cmdRegs i s).fmm := by
  cases i with
  | poly | readum | readmm => simp [cmdRegs, micrometres_eq_wrap32]
  | _ => simpa [cmdRegs] using h

/-- MM is a quotient by 1000 of 32 signed bits (43_clamp_convert.md R127). -/
theorem abs_toMm_mm_le (g : Regs) : |g.toMm.mm.toInt| ≤ 2147483 := by
  obtain ⟨t, ht, hbound, -⟩ := tommRoundsTowardZero { State.reset with regs := g }
  cases ht
  exact hbound

theorem cmdRegs_mm_bound (h : |s.regs.mm.toInt| ≤ 2147483) : |(cmdRegs i s).mm.toInt| ≤ 2147483 := by
  cases i with
  | tomm | readmm => exact abs_toMm_mm_le _
  | _ => simpa [cmdRegs] using h

theorem cmdRegs_holdsProduct (hwf : i.wf = true) (h : s.regs.HoldsProduct) : (cmdRegs i s).HoldsProduct := by
  cases i with
  | fxmul sh =>
    rw [cmdRegs, Regs.multiply_eq]
    exact ⟨_, _, sh, (Instr.wf_iff _).1 hwf, halves_append _, rfl⟩
  | _ => simpa [Regs.HoldsProduct, cmdRegs] using h

end completed

/-- Each effect of a legal access keeps the facts. -/
theorem AccessEffect.facts {s : State} {g : Regs} (h : AccessEffect s g) (hs : s.regs.Facts s.vref.word) :
    g.Facts s.vref.word := by
  cases h with
  | stored => exact { hs with }
  | configured hleg =>
    exact { hs with
      err_ne_enocfg := fun _ => by simp [ErrCode.code]
      err_ne_erange := fun _ => by simp [ErrCode.code]
      unconfigured := fun hcfgv => nomatch hleg.symm.trans hcfgv }
  | failed henocfg herange =>
    exact { hs with
      err_ne_enocfg := fun hcfgv herr => nomatch hcfgv.symm.trans (henocfg (code_injective herr))
      err_ne_erange := fun hcfgv herr => nomatch hcfgv.symm.trans (herange (code_injective herr)) }
  | completed hwf hscales =>
    exact {
      err_ne_enocfg := fun _ => by simp [ErrCode.code]
      err_ne_erange := fun _ => by simp [ErrCode.code]
      unconfigured := cmdRegs_unconfigured hscales hs.unconfigured
      vpin_bounds := cmdRegs_vpin_bounds hscales hs.vpin_bounds
      umr_eq := cmdRegs_umr_eq hs.umr_eq
      mm_bound := cmdRegs_mm_bound hs.mm_bound
      product := cmdRegs_holdsProduct hwf hs.product }

theorem State.Reachable.facts {s : State} (h : s.Reachable) : s.regs.Facts s.vref.word :=
  Reachable.induction (P := fun s => s.regs.Facts s.vref.word) (fun _ _ hr hv _ hs => by rwa [hr, hv])
    (fun p _ => Regs.facts_reset p)
    (fun _ _ _ _ hl hp hs h => (step_keeps_parameters h).1 ▸ (step_accessEffect hl hp h).facts hs) h

/-- The facts about the registers are those of the statement, which names CFG by its offset. -/
theorem reachableFacts_of_facts {s : State} (hwf : s.regs.Wf) (h : s.regs.Facts s.vref.word) : ReachableFacts s := by
  obtain ⟨hres, hflags, herr⟩ := hwf
  have hconf := configured_iff s
  rw [← hconf] at hres
  refine ⟨hres, hflags, herr, fun hc => h.err_ne_enocfg (hconf.1 hc), fun hc => ?_, h.vpin_bounds.1,
    h.vpin_bounds.2, h.umr_eq, h.mm_bound, h.product⟩
  have hcfgv : s.regs.cfgv = false := Bool.eq_false_iff.2 (mt hconf.2 hc)
  exact ⟨h.err_ne_erange hcfgv, h.unconfigured hcfgv⟩

/-- Settles O60: the empty run, two runs in turn, and the facts by induction over the reachable states. -/
theorem startStatesAreTheReachableOnes : Obligations.StartStatesAreTheReachableOnes := by
  refine ⟨reachable_resetWith, fun s xs hs hl => ?_, fun s hs => reachableFacts_of_facts hs.wf hs.facts⟩
  obtain ⟨t, hrun, hpending, hvref, hdivr⟩ := exists_runsTo s hl
  exact ⟨t, hrun, hs.of_runsTo hrun hvref hdivr, hpending⟩

end Sys2Proof.Machine
end
